-- ==== Sys2Proof/Word.lean ====
section
/-! DEFINITION. The word types of the block and the plainest types built from them: command and response words
(R90), source pixel codes (R96), signal samples (R36), and the cell-indexed memories of R60. -/

namespace Sys2Proof

/-- A 32-bit command word or response word (R90). -/
abbrev Word := BitVec 32

/-- One byte of a host-side transport (R63). -/
abbrev Byte := BitVec 8

/-- One SignalBuffer cell, an `int8` (R36). -/
abbrev Sample := BitVec 8

/-- One source-image cell, a 9-bit pixel code (R37, R96). -/
abbrev PixelCode := BitVec 9

/-- A cell-indexed memory of `w`-bit cells (R60): the cells written since the last reset, as (cell index, value)
pairs in rising order of the index. For `w = 8` the pairs are `Host.Cell`. -/
abbrev Memory (w : Nat) := List (Nat × BitVec w)

/-- A scanline-phase-group, `scanline mod 6` (R5 `N_GROUPS`). -/
abbrev Group := Fin 6

/-- A burst-cycle position, `sample mod 4` (R5 `N_POS`). -/
abbrev Position := Fin 4

/-- A 6 by 4 table of `int32` registers (R32, R34). -/
abbrev PhaseTable := Vector (Vector (BitVec 32) 4) 6

end Sys2Proof
end

