-- ==== Sys2Proof/Syntax.lean ====
section
/-! DEFINITION. The operation set (R92): one constructor per row of the opcode table, with the operand fields of its
format (R91, R94). Operands are unsigned fields, not scaled and not extended. -/

namespace Sys2Proof

/-- One command (R92). -/
inductive Instr where
  /-- NOP (R222). -/
  | nop
  /-- MODULATE: the Scanline Modulator, a whole field (R181). -/
  | modulate
  /-- TEMPLATE: the Field Template Builder (R121). -/
  | template
  /-- BURSTGEN: the Burst/Phase Generator (R161). -/
  | burstgen
  /-- SAMPLE pix, phase: the Quadrature Amplitude Sampler (R140). -/
  | sample (pix : PixelCode) (phase : BitVec 16)
  /-- INVALIDATE: clear `FI` (R224). -/
  | invalidate
  /-- CLRBUF: zero the SignalBuffer (R225). -/
  | clrbuf
  /-- WRREG reg, val16: write a host register (R226). -/
  | wrreg (reg : BitVec 5) (val : BitVec 16)
  /-- RDREG reg: read a register (R227). -/
  | rdreg (reg : BitVec 5)
  /-- WRSRC addr16, pix: write a source-image cell (R228). -/
  | wrsrc (addr : BitVec 16) (pix : PixelCode)
  /-- RDSIG addr28: read a SignalBuffer cell (R229). -/
  | rdsig (addr : BitVec 28)
  /-- RDSRC addr28: read a source-image cell (R230). -/
  | rdsrc (addr : BitVec 28)
  deriving DecidableEq, Repr

end Sys2Proof
end

