-- ==== Sys2Proof/Decode.lean ====
section
/-! DEFINITION. The decoder, total on every 32-bit word and on every list of bytes, and the encoder, both written from the
formats of R91 and the table of R92. The byte order of a transport is little-endian (R63, D33). -/

namespace Sys2Proof

/-- Why a word is no command (R101 items 1 and 2), or why a list of bytes holds no word. -/
inductive Illegal where
  /-- `op` is 0xC, 0xD, 0xE or 0xF (R101 item 1). -/
  | reservedOpcode
  /-- A "must be 0" field of the format is not 0 (R101 item 2). -/
  | reservedField
  /-- Fewer than the four bytes of one command word are left. -/
  | tooFewBytes
  deriving DecidableEq, Repr

/-- Bits `[lo + width - 1 : lo]` of a command word. -/
def field (cw : Word) (lo width : Nat) : BitVec width := cw.extractLsb' lo width

/-- The command `i` if the "must be 0" field `[lo + width - 1 : lo]` is 0 (R91). -/
def ifZero (cw : Word) (lo width : Nat) (i : Instr) : Except Illegal Instr :=
  if field cw lo width = 0 then .ok i else .error .reservedField

/-- The command a word stands for, by its opcode and its format (R91, R92). -/
def decodeWord (cw : Word) : Except Illegal Instr :=
  match (field cw 28 4).toNat with
  | 0x0 => ifZero cw 0 28 .nop
  | 0x1 => ifZero cw 0 28 .modulate
  | 0x2 => ifZero cw 0 28 .template
  | 0x3 => ifZero cw 0 28 .burstgen
  | 0x4 => ifZero cw 25 3 (.sample (field cw 0 9) (field cw 9 16))
  | 0x5 => ifZero cw 0 28 .invalidate
  | 0x6 => ifZero cw 0 28 .clrbuf
  | 0x7 => ifZero cw 16 7 (.wrreg (field cw 23 5) (field cw 0 16))
  | 0x8 => ifZero cw 0 23 (.rdreg (field cw 23 5))
  | 0x9 => ifZero cw 25 3 (.wrsrc (field cw 9 16) (field cw 0 9))
  | 0xA => .ok (.rdsig (field cw 0 28))
  | 0xB => .ok (.rdsrc (field cw 0 28))
  | _ => .error .reservedOpcode

/-- The word made of four bytes of a transport, least significant first (R63). -/
def wordOfBytes (b0 b1 b2 b3 : Byte) : Word := b3 ++ b2 ++ b1 ++ b0

/-- The four bytes of a word in transport order, least significant first (R63). -/
def bytesOfWord (w : Word) : List Byte := [field w 0 8, field w 8 8, field w 16 8, field w 24 8]

/-- The 16-bit host-side source cell made of two bytes of a transport, least significant first (R62, R63). -/
def cellOfBytes (b0 b1 : Byte) : BitVec 16 := b1 ++ b0

/-- The two bytes of a 16-bit host-side source cell in transport order, least significant first (R62, R63). -/
def bytesOfCell (v : BitVec 16) : List Byte := [v.extractLsb' 0 8, v.extractLsb' 8 8]

/-- The first command of a byte stream, with the bytes after it. -/
def decodeBytes : List Byte → Except Illegal (Instr × List Byte)
  | b0 :: b1 :: b2 :: b3 :: rest =>
    match decodeWord (wordOfBytes b0 b1 b2 b3) with
    | .ok i => .ok (i, rest)
    | .error e => .error e
  | _ => .error .tooFewBytes

/-- The command word of an instruction (R91, R92). -/
def encode : Instr → Word
  | .nop => 0x0#4 ++ 0#28
  | .modulate => 0x1#4 ++ 0#28
  | .template => 0x2#4 ++ 0#28
  | .burstgen => 0x3#4 ++ 0#28
  | .sample pix phase => 0x4#4 ++ 0#3 ++ phase ++ pix
  | .invalidate => 0x5#4 ++ 0#28
  | .clrbuf => 0x6#4 ++ 0#28
  | .wrreg reg val => 0x7#4 ++ reg ++ 0#7 ++ val
  | .rdreg reg => 0x8#4 ++ reg ++ 0#23
  | .wrsrc addr pix => 0x9#4 ++ 0#3 ++ addr ++ pix
  | .rdsig addr => 0xA#4 ++ addr
  | .rdsrc addr => 0xB#4 ++ addr

/-- The bytes of an instruction in transport order. -/
def encodeBytes (i : Instr) : List Byte := bytesOfWord (encode i)

/-- What the decoder reads from a word whose low `nbits` bits are `w`, every bit above them 0. -/
def decodeTableWord (nbits w : Nat) : Option Instr :=
  match decodeBytes (bytesOfWord (BitVec.ofNat 32 (w % 2 ^ nbits))) with
  | .ok (i, _) => some i
  | .error _ => none

end Sys2Proof
end

