-- ==== Sys2Proof/Config.lean ====
section
/-! DEFINITION. The configuration `cfg` of one instance (R6), and the free values: what the spec leaves open and
forbids a model to choose, each an uninterpreted constant with no body. -/

namespace Sys2Proof

/-- Where the sine component of the external trigonometric primitive comes from (R6 `SIN`, R171).
`external known primitive` is a primitive outside the block, of which only R171 (a), (b), (c) may be assumed: its values at the
arguments in `known` are those listed, and at every other argument they are free values of the primitive so numbered (log entry
3). `triangle` is `SIN_TRI` of R170, the stand-in that the configuration `TOY` uses. -/
inductive SineSource where
  | external (known : List (Int × Int)) (primitive : Nat)
  | triangle
  deriving DecidableEq, Repr

/-- The parameters the source names without a value (R6). They are fixed for one instance. -/
structure Config where
  /-- `HRES`: samples per scanline. -/
  hres : Nat
  /-- `VRES`: scanlines of the SignalBuffer. -/
  vres : Nat
  /-- `TOP`: first modulated line. -/
  top : Nat
  /-- `LINES`: number of output scanlines. -/
  lines : Nat
  /-- `SYNC_BEG`: sync-begin threshold. -/
  syncBeg : Nat
  /-- `SYNC_END`: back-porch threshold and sync-end threshold (D9). -/
  syncEnd : Nat
  /-- `CB_BEG`: colour-burst-begin threshold. -/
  cbBeg : Nat
  /-- `CB_CYCLES`: subcarrier cycles in the burst. -/
  cbCycles : Nat
  /-- `AV_BEG`: first active-video sample of a line. -/
  avBeg : Nat
  /-- `AV_LEN`: active-video samples per line. -/
  avLen : Nat
  /-- `EQ_LINES`: the equalizing-pulse lines. -/
  eqLines : List Nat
  /-- The first of the three consecutive lines of `VS_LINES` (R124: a fixed block of 3 lines). -/
  vsFirst : Nat
  /-- `SYNC_LEVEL`. -/
  syncLevel : Int
  /-- `BLANK_LEVEL`. -/
  blankLevel : Int
  /-- `BLACK_LEVEL`. -/
  blackLevel : Int
  /-- `BURST_LEVEL`: burst amplitude factor. -/
  burstLevel : Int
  /-- `IRE_TABLE`: the amplitude table. -/
  ireTable : Vector Int 16
  /-- `EMPH_MASK`: the emphasis activation mask, one entry per sextant. -/
  emphMask : Vector (BitVec 3) 6
  /-- `HUE_WHITE`: the hue index forced luminance-active. -/
  hueWhite : Nat
  /-- `HUE_BLACK`: the hue index forced luminance-inactive. -/
  hueBlack : Nat
  /-- `SIN`: the sine component of the trigonometric primitive. -/
  sin : SineSource
  /-- `TRIG_HALF_TURN`: angle units of the primitive in 180 degrees. -/
  trigHalfTurn : Nat
  /-- `BURST_SIN_SHIFT`: right shift of the sine. -/
  burstSinShift : Nat
  /-- `BURST_OUT_SHIFT`: right shift of a burst sample. -/
  burstOutShift : Nat
  /-- `SWING_EVEN_POSITIVE`: whether even groups swing by +60 degrees. -/
  swingEvenPositive : Bool
  /-- `SRC_CAP`: cells of the source-image memory. -/
  srcCap : Nat
  /-- `RESET_BLACK_POINT`. -/
  resetBlackPoint : BitVec 16
  /-- `RESET_WHITE_POINT`. -/
  resetWhitePoint : BitVec 16
  deriving DecidableEq, Repr

/-- The trigonometric primitives outside the block (R3, R171), one for each number, before the bound (c) is imposed. FREE VALUE:
log entry 3. -/
opaque Config.externalSine : (primitive : Nat) → Int → Int

/-- What a cell of `SIG` holds after the given reset until an operation writes it (R38, R281). FREE VALUE: log entry 2.
DESIGN CHOICE, same entry, for this constant and the four below: the value depends on the reset count and the cell alone, so two
instances with equal counts hold equal unspecified values, whatever their configurations, which the spec leaves open. -/
opaque Config.sigAtReset : (resetCount cell : Nat) → Sample

/-- What a cell of `SRC` holds after the given reset until WRSRC writes it (R38, R281). FREE VALUE: log entry 2. -/
opaque Config.srcAtReset : (resetCount cell : Nat) → PixelCode

/-- What `CCF[g][p]` holds after the given reset (R32, R38). FREE VALUE: log entry 2. -/
opaque Config.ccfAtReset : (resetCount : Nat) → Group → Position → BitVec 32

/-- What `CCB[g][p]` holds after the given reset (R34, R38). FREE VALUE: log entry 2. -/
opaque Config.ccbAtReset : (resetCount : Nat) → Group → Position → BitVec 32

/-- What `CC_PERIOD` holds after the given reset (R33, R38). FREE VALUE: log entry 2. -/
opaque Config.ccPeriodAtReset : (resetCount : Nat) → BitVec 8

end Sys2Proof
end

