-- ==== Sys2Proof/Machine/Legal.lean ====
section
/-! DEFINITION. The checks a decoded command word must still pass (R101 items 3 to 6). Items 1 and 2 are the decoder's. -/

namespace Sys2Proof.Machine

/-- WRREG writes registers 1 to 5 and no other (R101 item 3). -/
def wrregLegal (reg : BitVec 5) : Bool := 1 ≤ reg.toNat && reg.toNat ≤ 5

/-- RDREG reads every register but number 7 (R101 item 4). -/
def rdregLegal (reg : BitVec 5) : Bool := reg.toNat != 7

/-- A cell index inside `SIG`, `0 .. VRES*HRES - 1` (R60, R101 item 5). -/
def sigIndexLegal (c : Config) (cell : Nat) : Bool := cell < c.vres * c.hres

/-- A cell index inside `SRC`, `0 .. SRC_CAP - 1` (R60, R101 item 6). -/
def srcIndexLegal (c : Config) (cell : Nat) : Bool := cell < c.srcCap

end Sys2Proof.Machine
end

