-- ==== Sys2Proof/Machine/Arith.lean ====
section
/-! DEFINITION. The arithmetic primitives of R9. Operands and results are exact integers; the only narrowing of the
block is `wrap8`. `fdiv` and `mod` are used on naturals only and are Lean's `/` and `%` on `Nat`. -/

namespace Sys2Proof.Machine

/-- `tdiv(a, b)`: division truncated toward zero (R9). -/
def tdiv (a b : Int) : Int := Int.tdiv a b

/-- `asr(v, k)`: arithmetic shift right, the floor of `v / 2^k` for every sign of `v` (R9). -/
def asr (v : Int) (k : Nat) : Int := v / 2 ^ k

/-- `shl(v, k) = v * 2^k`, no wrap (R9). -/
def shl (v : Int) (k : Nat) : Int := v * 2 ^ k

/-- `wrap8(v)`: the low 8 bits of `v` read as an `int8` (R9). -/
def wrap8 (v : Int) : Int := (v + 128) % 256 - 128

/-- `clamp(v, lo, hi) = min(max(v, lo), hi)` (R9). -/
def clamp {α : Type} [Min α] [Max α] (v lo hi : α) : α := min (max v lo) hi

/-- The SignalBuffer cell that holds the `int8` value `v` (R10: `SIG[n][t] <- v` with `v` an `int8`). -/
def toSample (v : Int) : Sample := BitVec.ofInt 8 v

/-- The `int32` register or response that holds the value `v` (R32, R34, R90). -/
def toInt32 (v : Int) : BitVec 32 := BitVec.ofInt 32 v

end Sys2Proof.Machine
end

