-- ==== Sys2Proof/Machine/Configurations.lean ====
section
/-! DEFINITION. Which configurations are admitted (R6, R7), the two configurations the spec tabulates (R6), and the one the
instance `State.reset` is built with. -/

namespace Sys2Proof

/-- R7 item 1: the thresholds are ordered and the burst window is inside the line. -/
abbrev Config.thresholdsOrdered (c : Config) : Prop :=
  c.syncBeg ≤ c.syncEnd ∧ c.syncEnd ≤ c.cbBeg ∧ c.cbBeg + 4 * c.cbCycles ≤ c.hres

/-- R7 item 2: the active window is inside the line and after the burst window. -/
abbrev Config.windowsDisjoint (c : Config) : Prop :=
  c.avBeg + c.avLen ≤ c.hres ∧ c.cbBeg + 4 * c.cbCycles ≤ c.avBeg

/-- R7 item 3: the modulated lines are inside the buffer, and every cache entry is rewritten by every MODULATE. -/
abbrev Config.linesFit (c : Config) : Prop :=
  c.top + c.lines ≤ c.vres ∧ 6 ≤ c.lines ∧ 1 ≤ c.cbCycles

/-- Line `n` is one of the three lines of `VS_LINES` (R124). -/
abbrev Config.isVsLine (c : Config) (n : Nat) : Prop := c.vsFirst ≤ n ∧ n < c.vsFirst + 3

/-- R7 item 4: the equalizing lines are in the buffer, on both sides of the vertical-sync block and outside it. -/
abbrev Config.syncLinesFit (c : Config) : Prop :=
  c.vsFirst + 2 < c.vres ∧ (∀ n ∈ c.eqLines, n < c.vres ∧ ¬ c.isVsLine n) ∧
    (∃ n ∈ c.eqLines, n < c.vsFirst) ∧ (∃ n ∈ c.eqLines, c.vsFirst + 2 < n)

/-- R7 item 5: no modulated line is an equalizing or vertical-sync line. -/
abbrev Config.modulatedLinesClear (c : Config) : Prop :=
  (∀ n ∈ c.eqLines, ¬ (c.top ≤ n ∧ n < c.top + c.lines)) ∧
    (c.vsFirst + 3 ≤ c.top ∨ c.top + c.lines ≤ c.vsFirst)

/-- R7 item 6: the levels and the amplitude table are in range. (`sine` of Burst.lean imposes its clause on `SIN`.) -/
abbrev Config.levelsInRange (c : Config) : Prop :=
  (-128 ≤ c.syncLevel ∧ c.syncLevel ≤ 127) ∧ (-128 ≤ c.blankLevel ∧ c.blankLevel ≤ 127) ∧
    (∀ v ∈ c.ireTable.toList, v.natAbs < 2 ^ 17) ∧ c.blackLevel.natAbs < 2 ^ 15 ∧ c.burstLevel.natAbs < 2 ^ 15

/-- R7 item 7: the special hues. (Each mask entry is in 0..7 by its type.) -/
abbrev Config.specialHues (c : Config) : Prop :=
  c.hueWhite ≤ 13 ∧ c.hueBlack ≤ 13 ∧ c.hueWhite ≠ c.hueBlack

/-- The types of R6 that say `> 0`. -/
abbrev Config.positiveSizes (c : Config) : Prop :=
  0 < c.hres ∧ 0 < c.vres ∧ 0 < c.avLen ∧ 0 < c.trigHalfTurn ∧ 0 < c.srcCap

/-- A configuration is admitted (R6, R7). -/
def Config.admitted (c : Config) : Bool :=
  decide <| c.positiveSizes ∧ c.thresholdsOrdered ∧ c.windowsDisjoint ∧ c.linesFit ∧
    c.syncLinesFit ∧ c.modulatedLinesClear ∧ c.levelsInRange ∧ c.specialHues

/-- The reference amplitude table (R148; general knowledge G1, UNVERIFIED, log entry 4). -/
def referenceIreTable : Vector Int 16 :=
  #v[-12042, 0, 34406, 81427, -17203, -8028, 19497, 56769,
     43581, 75693, 112965, 112965, 26951, 52181, 83721, 83721]

/-- The reference emphasis mask (R144; general knowledge G2, UNVERIFIED, log entry 4). -/
def referenceEmphMask : Vector (BitVec 3) 6 := #v[3, 2, 6, 4, 5, 1]

/-- The reference configuration: column "reference value" of R6 (general knowledge, UNVERIFIED, log entry 4). -/
def Config.reference : Config where
  hres := 1135
  vres := 312
  top := 21
  lines := 290
  syncBeg := 29
  syncEnd := 112
  cbBeg := 128
  cbCycles := 10
  avBeg := 212
  avLen := 921
  eqLines := [0, 1, 2, 3, 7, 8, 9]
  vsFirst := 4
  syncLevel := -37
  blankLevel := 0
  blackLevel := 0
  burstLevel := 30
  ireTable := referenceIreTable
  emphMask := referenceEmphMask
  hueWhite := 0
  hueBlack := 13
  sin := .external [] 0
  trigHalfTurn := 8192
  burstSinShift := 10
  burstOutShift := 5
  swingEvenPositive := true
  srcCap := 65536
  resetBlackPoint := 0
  resetWhitePoint := 100

/-- The configuration `TOY`: column "toy value" of R6, the one the spec's test vectors use. -/
def Config.toy : Config where
  hres := 50
  vres := 24
  top := 10
  lines := 12
  syncBeg := 2
  syncEnd := 6
  cbBeg := 8
  cbCycles := 2
  avBeg := 20
  avLen := 24
  eqLines := [0, 1, 2, 3, 7, 8, 9]
  vsFirst := 4
  syncLevel := -40
  blankLevel := 0
  blackLevel := 7
  burstLevel := 20
  ireTable := referenceIreTable
  emphMask := referenceEmphMask
  hueWhite := 0
  hueBlack := 13
  sin := .triangle
  trigHalfTurn := 8192
  burstSinShift := 10
  burstOutShift := 5
  swingEvenPositive := true
  srcCap := 65536
  resetBlackPoint := 0
  resetWhitePoint := 100

/-- The configuration of the instance that `State.reset` describes: `TOY`, under which the spec states its programs from
reset. DESIGN CHOICE, log entry 1: the spec leaves every value open, and a claim is stated for every configuration. -/
def Config.installed : Config := Config.toy

end Sys2Proof
end

