-- ==== Sys2Proof/Machine/ResetValues.lean ====
section
/-! DEFINITION. The value of each register after reset (R38, R280), in a configuration and at the reset numbered
`resetCount`. -/

namespace Sys2Proof.Machine

/-- `BLACK_POINT` after reset: `RESET_BLACK_POINT` (R22). -/
def blackPointAfterReset (c : Config) : BitVec 16 := c.resetBlackPoint

/-- `WHITE_POINT` after reset: `RESET_WHITE_POINT` (R22). -/
def whitePointAfterReset (c : Config) : BitVec 16 := c.resetWhitePoint

/-- `HUE` after reset (R23). -/
def hueAfterReset : BitVec 16 := 0

/-- `SRC_W` after reset (R23). -/
def srcWAfterReset : BitVec 16 := 0

/-- `SRC_H` after reset (R23). -/
def srcHAfterReset : BitVec 16 := 0

/-- `FI` after reset: "false at construction" (R25). -/
def fiAfterReset : Bool := false

/-- `ERR` after reset (R26). -/
def errAfterReset : Bool := false

/-- `ERRCODE` after reset (R26). -/
def errcodeAfterReset : BitVec 2 := 0

/-- `CC_PERIOD` after reset: unspecified (R33), a free value. -/
def ccPeriodAfterReset (resetCount : Nat) : BitVec 8 := Config.ccPeriodAtReset resetCount

/-- `CCF` after reset: unspecified (R32), 24 free values. -/
def ccfAfterReset (resetCount : Nat) : PhaseTable :=
  Vector.ofFn fun g => Vector.ofFn fun p => Config.ccfAtReset resetCount g p

/-- `CCB` after reset: unspecified (R34), 24 free values. -/
def ccbAfterReset (resetCount : Nat) : PhaseTable :=
  Vector.ofFn fun g => Vector.ofFn fun p => Config.ccbAtReset resetCount g p

/-- The response word before any command has returned one (log entry 8). -/
def respAfterReset : Word := 0

end Sys2Proof.Machine
end

