-- ==== Sys2Proof/Machine/State.lean ====
section
/-! DEFINITION. The state of one instance (R20) with its command interface (R220, R292), the reasons a step can stop, and
the state after reset (R38). -/

namespace Sys2Proof.Machine

/-- The operations a sequencer can be running (R24, R92). -/
inductive Operation where
  | nop | modulate | template | burstgen | sample | invalidate | clrbuf | wrreg | rdreg | wrsrc | rdsig | rdsrc
  deriving DecidableEq, Repr

/-- The sequencer state `seq` (R24). -/
inductive Seq where
  | idle
  | run (op : Operation)
  deriving DecidableEq, Repr

/-- One step of the host (R291): it presents a command word, or it applies reset. -/
inductive HostAction where
  | command (cw : Word)
  | reset
  deriving DecidableEq, Repr

/-- The whole state of one instance (R20), its configuration (R6), and the host's side of its command interface. -/
structure State where
  /-- The configuration of this instance (R6): plain data no step changes. The model's own field, log entry 1. -/
  cfg : Config
  /-- `SIG`, the SignalBuffer (R36): the cells written since the last reset. -/
  sig : Memory 8
  /-- `SRC`, the source image (R37): the cells written since the last reset. -/
  src : Memory 9
  /-- `BLACK_POINT`, `int16` (R22). -/
  blackPoint : BitVec 16
  /-- `WHITE_POINT`, `int16` (R22). -/
  whitePoint : BitVec 16
  /-- `HUE`, `int16` (R23). -/
  hue : BitVec 16
  /-- `SRC_W`, `uint16` (R23). -/
  srcW : BitVec 16
  /-- `SRC_H`, `uint16` (R23). -/
  srcH : BitVec 16
  /-- `FI`, the document's `field_initialized` (R25). -/
  fi : Bool
  /-- `CCF`, the ColorCarrierCache table, `int32` entries (R32). -/
  ccf : PhaseTable
  /-- `CC_PERIOD`, `uint8` (R33). -/
  ccPeriod : BitVec 8
  /-- `ERR`, sticky (R26). -/
  err : Bool
  /-- `ERRCODE` (R26). -/
  errcode : BitVec 2
  /-- `CCB`, the hidden swinging-burst table, `int32` entries (R34). -/
  ccb : PhaseTable
  /-- `seq`, the sequencer state (R24). -/
  seq : Seq
  /-- The response word of the last command (R90). -/
  resp : Word
  /-- What the host has yet to do, next first: the rest of its program (R292). -/
  pending : List HostAction
  /-- The responses returned so far, oldest first (R292). -/
  responses : List Word
  /-- How many resets have been applied since the first: which free values the unspecified cells hold (log entry 2). -/
  resetCount : Nat
  deriving DecidableEq, Repr

/-- Reasons the machine stops with a fault: none. Both failures the spec defines are exceptions that leave a next state
(R254), every memory index of an admitted configuration is in range (R64), and every read returns a value (R281). -/
inductive Fault where
  deriving DecidableEq, Repr

/-- Reasons a step is refused. -/
inductive Refusal where
  /-- Raised by an arm of `exec` for an instruction without a meaning; safe. No arm does. -/
  | notModelled (mnemonic : String)
  /-- Raised by `step` when the sequencer is not idle: a command or a reset is accepted only in `IDLE` (R220, R280) and the
  model has no other step there (U2, U6, log entry 9); safe. No run from reset reaches such a state. -/
  | notIdle
  /-- Raised by `step` in a configuration that R7 does not admit: "no claim covers it" (U15, log entry 5); safe. -/
  | configurationNotAdmitted
  deriving DecidableEq, Repr

/-- The state after the reset numbered `resetCount`, for every configuration (R38, R280). -/
def State.afterReset (c : Config) (resetCount : Nat) : State where
  cfg := c
  sig := []
  src := []
  blackPoint := blackPointAfterReset c
  whitePoint := whitePointAfterReset c
  hue := hueAfterReset
  srcW := srcWAfterReset
  srcH := srcHAfterReset
  fi := fiAfterReset
  ccf := ccfAfterReset resetCount
  ccPeriod := ccPeriodAfterReset resetCount
  err := errAfterReset
  errcode := errcodeAfterReset
  ccb := ccbAfterReset resetCount
  seq := .idle
  resp := respAfterReset
  pending := []
  responses := []
  resetCount := resetCount

/-- The machine right after reset (R38), with nothing for the host to do yet. -/
def State.reset : State := State.afterReset Config.installed 0

end Sys2Proof.Machine
end

