-- ==== Sys2Proof/Machine/Flags.lean ====
section
/-! DEFINITION. The flags of the block, `FI`, `ERR` and `ERRCODE` (R25, R26), and the word `STATUS` they make (R27). There
are no arithmetic condition codes (R26). -/

namespace Sys2Proof.Machine

/-- The two exceptions of the block (R250). The information a `raise` carries is not stored (R254). -/
inductive ExceptionCause where
  /-- MODULATE with image dimensions that describe no image that fits (R251). -/
  | invalidArgument
  /-- A command word that R101 calls illegal (R252). -/
  | illegalCommand
  deriving DecidableEq, Repr

/-- `code(E)` (R254): what `ERRCODE` records. -/
def codeOf : ExceptionCause → BitVec 2
  | .invalidArgument => 1
  | .illegalCommand => 2

/-- `ERRCODE` after a `raise`: the first cause is kept (R26, R254). -/
def errcodeAfterRaise (e : ExceptionCause) (err : Bool) (errcode : BitVec 2) : BitVec 2 :=
  if err then errcode else codeOf e

/-- `STATUS`: [0] `FI`, [1] `ERR`, [3:2] `ERRCODE`, [31:4] read as 0 (R27). -/
def statusWord (s : State) : Word := 0#28 ++ s.errcode ++ BitVec.ofBool s.err ++ BitVec.ofBool s.fi

/-- The commands that still work while `ERR = 1` (R220, R255). -/
def worksInError : Operation → Bool
  | .nop | .rdreg | .rdsig | .rdsrc => true
  | .modulate | .template | .burstgen | .sample | .invalidate | .clrbuf | .wrreg | .wrsrc => false

end Sys2Proof.Machine
end

