-- ==== Sys2Proof/Machine/Memory.lean ====
section
/-! DEFINITION. The operations on a cell-indexed memory (R10, R60) kept as a list in one canonical form. A cell that the
list does not hold has not been written since the last reset; `Memory.find` answers nothing for it, and `readSig` and
`readSrc` of Ops.lean answer the value it has held since that reset (R281). -/

namespace Sys2Proof.Machine

/-- The canonical form: cell indexes strictly rising. (An unlisted cell reads as nothing here, so no entry can equal what
an unlisted cell reads as.) -/
abbrev Memory.wf {w : Nat} (m : Memory w) : Prop := m.Pairwise fun a b => a.1 < b.1

/-- The value written to a cell since the last reset, if one was. -/
def Memory.find {w : Nat} : Memory w → Nat → Option (BitVec w)
  | [], _ => none
  | (b, v) :: m, cell => if cell = b then some v else Memory.find m cell

/-- `MemWrite(space, cell, 1, v)` (R10). -/
def Memory.write {w : Nat} : Memory w → Nat → BitVec w → Memory w
  | [], cell, v => [(cell, v)]
  | (b, u) :: m, cell, v =>
    if cell < b then (cell, v) :: (b, u) :: m
    else if cell = b then (cell, v) :: m
    else (b, u) :: Memory.write m cell v

/-- The `n` entries from cell `base` on, the `i`-th holding `f i`. -/
def Memory.run {w : Nat} (base n : Nat) (f : Nat → BitVec w) : Memory w :=
  (List.range n).map fun i => (base + i, f i)

/-- Writes `f i` to cell `base + i` for every `i < n`, in one pass. `Laws.fill_eq_writes` shows it equal to the loop of
single writes that R11 describes. -/
def Memory.fill {w : Nat} (m : Memory w) (base n : Nat) (f : Nat → BitVec w) : Memory w :=
  m.filter (fun e => e.1 < base) ++ (Memory.run base n f ++ m.filter (fun e => base + n ≤ e.1))

/-- `for i in lo .. lo + n - 1: s <- body i s`, in rising order of `i` (R11). -/
def loopFrom {σ : Type} (body : Nat → σ → σ) : (n lo : Nat) → σ → σ
  | 0, _, s => s
  | n + 1, lo, s => loopFrom body n (lo + 1) (body lo s)

/-- `for i in lo .. hi - 1: s <- body i s` (R11): nothing is run when `hi ≤ lo`. -/
def loop {σ : Type} (lo hi : Nat) (body : Nat → σ → σ) (s : σ) : σ := loopFrom body (hi - lo) lo s

end Sys2Proof.Machine
end

