-- ==== Sys2Proof/Machine/Operands.lean ====
section
/-! DEFINITION. How operands are read: the fields of a pixel code (R96), the groups and positions of the phase tables
(R32), the index arithmetic of the core (R61, R66) and the reading of register contents (R27, R94). -/

namespace Sys2Proof.Machine

/-- `hue(p) = p[3:0]` (R96). -/
def hueOf (p : Int) : Nat := (p % 16).toNat

/-- `tier(p) = p[5:4]` (R96). -/
def tierOf (p : Int) : Fin 4 := Fin.ofNat 4 (p / 16 % 4).toNat

/-- `emph(p) = p[8:6]` (R96). -/
def emphOf (p : Int) : BitVec 3 := BitVec.ofInt 3 (p / 64)

/-- A 9-bit pixel code as the unsigned number it is (R66: never sign-extended). -/
def pixelValue (pix : PixelCode) : Int := pix.toNat

/-- The pixel code stored for a 16-bit host-side source cell: bits [8:0]; bits [15:9] are dropped (R62). -/
def pixelOfHostCell (v : BitVec 16) : PixelCode := v.extractLsb' 0 9

/-- A stored pixel code as a 16-bit host-side source cell (R62): no bit above bit 8 is set. -/
def hostCellOfPixel (pix : PixelCode) : BitVec 16 := pix.zeroExtend 16

/-- The scanline-phase-group of a line, `n mod 6` (R5, R32). -/
def groupOf (n : Nat) : Group := Fin.ofNat 6 n

/-- The burst-cycle position of a sample, `t mod 4` (R5, R32). -/
def positionOf (t : Nat) : Position := Fin.ofNat 4 t

/-- `SIG` cell index of line `n`, sample `t`: `n*HRES + t` (R61). -/
def sigCell (c : Config) (n t : Nat) : Nat := n * c.hres + t

/-- `SRC` cell index of row `r`, column `col`: `r*SRC_W + col` (R62). -/
def srcCell (w r col : Nat) : Nat := r * w + col

/-- Step 1 of a line, the source row of output line `y` in an image of height `h` (R66, R185). -/
def sourceRow (c : Config) (h y : Nat) : Nat := clamp (y * h / c.lines) 0 h

/-- The source column of output sample `x` in an image of width `w` (R66, R191). -/
def sourceColumn (c : Config) (w x : Nat) : Nat := x * w / c.avLen

/-- `sext_16`: how registers 1, 2 and 3 are read (R94). -/
def signed16 (v : BitVec 16) : Int := v.toInt

/-- `zext_16`: how registers 4 and 5 are read (R94). -/
def unsigned16 (v : BitVec 16) : Nat := v.toNat

/-- The value of an `int32` register (R32, R34). -/
def signed32 (v : BitVec 32) : Int := v.toInt

/-- The registers of R27 that RDREG can name. -/
inductive ReadableRegister where
  | status | blackPoint | whitePoint | hue | srcW | srcH | ccPeriod
  | ccf (g : Group) (p : Position)
  deriving DecidableEq, Repr

/-- The register a number stands for (R27); number 7 is reserved and stands for none. -/
def readableRegister (reg : BitVec 5) : Option ReadableRegister :=
  match reg.toNat with
  | 0 => some .status
  | 1 => some .blackPoint
  | 2 => some .whitePoint
  | 3 => some .hue
  | 4 => some .srcW
  | 5 => some .srcH
  | 6 => some .ccPeriod
  | 7 => none
  | n => some (.ccf (groupOf ((n - 8) / 4)) (positionOf (n - 8)))

end Sys2Proof.Machine
end

