-- ==== Sys2Proof/Machine/Ops.lean ====
section
/-! DEFINITION. The named operations over the state: memory cells and phase tables (R10), completing a command, taking an
exception (R254), refusing a command (R255), accepting one (R220), and what the host does to the instance (R280, R292). -/

namespace Sys2Proof.Machine

/-- `SIG[cell]`: what was written last, or what the cell has held since reset (R10, R281). -/
def readSig (s : State) (cell : Nat) : Sample :=
  (Memory.find s.sig cell).getD (Config.sigAtReset s.resetCount cell)

/-- `SRC[cell]`: what was written last, or what the cell has held since reset (R62, R281). -/
def readSrc (s : State) (cell : Nat) : PixelCode :=
  (Memory.find s.src cell).getD (Config.srcAtReset s.resetCount cell)

/-- Samples `lo .. hi - 1` of line `n` of a SignalBuffer, sample `t` written with the value `f t` (R10, R61). -/
def fillLine (c : Config) (n lo hi : Nat) (f : Nat → Int) (m : Memory 8) : Memory 8 :=
  Memory.fill m (sigCell c n lo) (hi - lo) fun i => toSample (f (lo + i))

/-- The entry `[g][p]` of a phase table. -/
def tableEntry (t : PhaseTable) (g : Group) (p : Position) : BitVec 32 := t[g][p]

/-- A phase table with the entry `[g][p]` replaced. -/
def tableWrite (t : PhaseTable) (g : Group) (p : Position) (v : BitVec 32) : PhaseTable :=
  t.set g (t[g].set p v)

/-- The phase table with entry `[g][p]` equal to `f g p`: what the two nested loops over `g` and `p` leave. -/
def tableOf (f : Group → Position → Int) : PhaseTable :=
  Vector.ofFn fun g => Vector.ofFn fun p => toInt32 (f g p)

/-- The start of a command: `seq` from `IDLE` to `RUN(op)` (R24). -/
def start (op : Operation) (s : State) : State := { s with seq := .run op }

/-- The end of a command: `resp <- v`, and `seq` back to `IDLE` (R24, R90). -/
def complete (v : Word) (s : State) : State := { s with resp := v, seq := .idle }

/-- `raise E(info)` (R254): taking an exception. There is nothing to save and nowhere to go; the command ends here. -/
def raise (e : ExceptionCause) (s : State) : State :=
  { s with
    err := true
    errcode := errcodeAfterRaise e s.err s.errcode
    resp := 0
    seq := .idle }

/-- A refused command: no state changes and `resp = 0` (R220, R255). -/
def refuseCommand (s : State) : State := complete 0 s

/-- What becomes of a decoded command (R220, R253), in this order: an illegal one raises `IllegalCommand`; one that changes
state is refused while `ERR = 1`; any other runs its own rule, with `seq = RUN(op)` (R24). -/
def accept (op : Operation) (legal : Bool) (s : State) (rule : State → State) : Host.Outcome State Fault Refusal :=
  .next <|
    if legal then
      if s.err && !worksInError op then refuseCommand s else rule (start op s)
    else raise .illegalCommand s

/-- The host applies reset (R280): the instance is as after reset in its configuration, its unspecified cells hold new free
values, and the host goes on with the rest of its program. -/
def applyReset (rest : List HostAction) (s : State) : State :=
  { State.afterReset s.cfg (s.resetCount + 1) with pending := rest, responses := s.responses }

/-- The response of a completed command is returned to the host (R292). -/
def returnResponse (s : State) : State := { s with responses := s.responses ++ [s.resp] }

end Sys2Proof.Machine
end

