-- ==== Sys2Proof/Machine/HostCommands.lean ====
section
/-! DEFINITION. The commands through which the host sets up and reads an instance (R222 to R230). -/

namespace Sys2Proof.Machine

/-- Registers 1 to 5, each storing all 16 written bits (R27, R226). -/
def writeRegister (reg : BitVec 5) (val : BitVec 16) (s : State) : State :=
  match reg.toNat with
  | 1 => { s with blackPoint := val }
  | 2 => { s with whitePoint := val }
  | 3 => { s with hue := val }
  | 4 => { s with srcW := val }
  | 5 => { s with srcH := val }
  | _ => s

/-- The 32-bit view of a register (R27). -/
def registerView (s : State) : ReadableRegister → Word
  | .status => statusWord s
  | .blackPoint => s.blackPoint.signExtend 32
  | .whitePoint => s.whitePoint.signExtend 32
  | .hue => s.hue.signExtend 32
  | .srcW => s.srcW.zeroExtend 32
  | .srcH => s.srcH.zeroExtend 32
  | .ccPeriod => s.ccPeriod.zeroExtend 32
  | .ccf g p => tableEntry s.ccf g p

/-- The register numbered `reg` as RDREG reads it (R227); number 7, which `rdregLegal` turns away, is no register. -/
def readRegister (s : State) (reg : BitVec 5) : Word :=
  match readableRegister reg with
  | some r => registerView s r
  | none => 0

/-- NOP (R222). -/
def execNop (s : State) : Host.Outcome State Fault Refusal :=
  accept .nop true s (complete 0)

/-- INVALIDATE (R224). -/
def execInvalidate (s : State) : Host.Outcome State Fault Refusal :=
  accept .invalidate true s fun s => complete 0 { s with fi := false }

/-- CLRBUF (R225): every cell of `SIG` takes 0. -/
def execClrbuf (s : State) : Host.Outcome State Fault Refusal :=
  accept .clrbuf true s fun s =>
    complete 0 { s with sig := Memory.fill s.sig 0 (s.cfg.vres * s.cfg.hres) fun _ => 0 }

/-- WRREG reg, val16 (R226). -/
def execWrreg (reg : BitVec 5) (val : BitVec 16) (s : State) : Host.Outcome State Fault Refusal :=
  accept .wrreg (wrregLegal reg) s fun s => complete 0 (writeRegister reg val s)

/-- RDREG reg (R227). -/
def execRdreg (reg : BitVec 5) (s : State) : Host.Outcome State Fault Refusal :=
  accept .rdreg (rdregLegal reg) s fun s => complete (readRegister s reg) s

/-- WRSRC addr16, pix (R228). -/
def execWrsrc (addr : BitVec 16) (pix : PixelCode) (s : State) : Host.Outcome State Fault Refusal :=
  accept .wrsrc (srcIndexLegal s.cfg addr.toNat) s fun s =>
    complete 0 { s with src := Memory.write s.src addr.toNat pix }

/-- RDSIG addr28 (R229): an `int8`, sign-extended. -/
def execRdsig (addr : BitVec 28) (s : State) : Host.Outcome State Fault Refusal :=
  accept .rdsig (sigIndexLegal s.cfg addr.toNat) s fun s =>
    complete ((readSig s addr.toNat).signExtend 32) s

/-- RDSRC addr28 (R230): a pixel code, zero-extended. -/
def execRdsrc (addr : BitVec 28) (s : State) : Host.Outcome State Fault Refusal :=
  accept .rdsrc (srcIndexLegal s.cfg addr.toNat) s fun s =>
    complete ((readSrc s addr.toNat).zeroExtend 32) s

end Sys2Proof.Machine
end

