-- ==== Sys2Proof/Machine/Burst.lean ====
section
/-! DEFINITION. The Burst/Phase Generator: burst angles, the external sine, the swinging-burst table and the command BURSTGEN
(R161 to R167, R170, R171). -/

namespace Sys2Proof.Machine

/-- `swing_positive(g) = (g mod 2 = 0) = SWING_EVEN_POSITIVE` (R167). -/
def swingPositive (c : Config) (g : Nat) : Bool := (g % 2 == 0) == c.swingEvenPositive

/-- `swing(g)` in degrees (R162). -/
def swing (c : Config) (g : Nat) : Int := if swingPositive c g then 60 else -60

/-- `burst_angle(g, p, hue)` in degrees, not reduced (R162). -/
def burstAngle (c : Config) (g : Group) (p : Position) (hue : Int) : Int :=
  (g : Nat) * 60 + hue + (p : Nat) * 90 + 135 + swing c g

/-- `deg_to_units(a) = tdiv(a * TRIG_HALF_TURN, 180)` (R163). -/
def degToUnits (c : Config) (a : Int) : Int := tdiv (a * c.trigHalfTurn) 180

/-- `SIN_TRI(u)`, the stand-in primitive of R170. -/
def sinTri (u : Int) : Int :=
  let m := u % 16384
  if m < 4096 then 8 * m
  else if m < 12288 then 8 * (8192 - m)
  else 8 * (m - 16384)

/-- `SIN(u)`: total, a function, and `|SIN(u)| ≤ 2^15` (R171). The bound is imposed on an external primitive (log entry 3). -/
def sine (c : Config) (u : Int) : Int :=
  match c.sin with
  | .external known primitive =>
    clamp ((known.lookup u).getD (Config.externalSine primitive u)) (-2 ^ 15) (2 ^ 15)
  | .triangle => sinTri u

/-- The reduced-precision sine of `CCB[g][p]` (R161, R164). -/
def burstSine (c : Config) (hue : Int) (g : Group) (p : Position) : Int :=
  asr (sine c (degToUnits c (burstAngle c g p hue))) c.burstSinShift

/-- `burst_sample(c)` (R166). -/
def burstSample (c : Config) (entry : Int) : Int :=
  wrap8 (asr (c.blankLevel + entry * c.burstLevel) c.burstOutShift)

/-- The loop of BURSTGEN (R161), which is also step 2 of MODULATE (R184): both tables take every reduced sine. -/
def generateBurst (s : State) : State :=
  let table := tableOf (burstSine s.cfg (signed16 s.hue))
  { s with ccb := table, ccf := table }

/-- BURSTGEN (R161). -/
def execBurstgen (s : State) : Host.Outcome State Fault Refusal :=
  accept .burstgen true s fun s => complete 0 (generateBurst s)

end Sys2Proof.Machine
end

