-- ==== Sys2Proof/Machine/Sampler.lean ====
section
/-! DEFINITION. The Quadrature Amplitude Sampler: the function `sample` (R141 to R147) and the command SAMPLE (R140). -/

namespace Sys2Proof.Machine

/-- The active half-cycle flag `v` (R143). -/
def halfCycleActive (h phase : Nat) : Bool := (h + phase) % 12 < 6

/-- The sextant of a phase, `fdiv(phase, 2) mod 6` (R144). -/
def sextantOf (phase : Nat) : Fin 6 := Fin.ofNat 6 (phase / 2)

/-- The emphasis-active flag `e` (R144). -/
def emphasisActive (c : Config) (p : Int) (phase : Nat) : Bool :=
  emphOf p &&& c.emphMask[sextantOf phase] != 0

/-- The luminance-active flag `l` (R145). -/
def luminanceActive (c : Config) (p : Int) (phase : Nat) : Bool :=
  if hueOf p = c.hueWhite then true
  else if hueOf p = c.hueBlack then false
  else halfCycleActive (hueOf p) phase

/-- The index `8*l + 4*e + tier` into the amplitude table (R146). -/
def amplitudeIndex (l e : Bool) (tier : Fin 4) : Fin 16 :=
  Fin.ofNat 16 (8 * l.toNat + 4 * e.toNat + tier)

/-- `sample(p, phase)`, for any integer `p` and `phase ≥ 0` (R147). -/
def sample (c : Config) (p : Int) (phase : Nat) : Int :=
  if 14 ≤ hueOf p then 0
  else c.ireTable[amplitudeIndex (luminanceActive c p phase) (emphasisActive c p phase) (tierOf p)]

/-- SAMPLE pix, phase (R140). -/
def execSample (pix : PixelCode) (phase : BitVec 16) (s : State) : Host.Outcome State Fault Refusal :=
  accept .sample true s fun s => complete (toInt32 (sample s.cfg (pixelValue pix) phase.toNat)) s

end Sys2Proof.Machine
end

