-- ==== Sys2Proof/Machine/Template.lean ====
section
/-! DEFINITION. The Field Template Builder: the pattern function `tmpl` (R122 to R127), the build guarded by `FI`, and the
command TEMPLATE (R121). -/

namespace Sys2Proof.Machine

/-- `thr(q) = fdiv(q * HRES, 100)` (R123). -/
def threshold (c : Config) (q : Nat) : Nat := q * c.hres / 100

/-- The equalizing-pulse pattern `eq(t)` (R125). -/
def equalizingLevel (c : Config) (t : Nat) : Int :=
  if t < threshold c 4 then c.syncLevel
  else if t < threshold c 50 then c.blankLevel
  else if t < threshold c 54 then c.syncLevel
  else c.blankLevel

/-- The vertical-sync pattern `vs(t)` (R126). -/
def verticalSyncLevel (c : Config) (t : Nat) : Int :=
  if t < threshold c 46 then c.syncLevel
  else if t < threshold c 50 then c.blankLevel
  else if t < threshold c 96 then c.syncLevel
  else c.blankLevel

/-- The pattern of all other lines `hl(t)` (R127). -/
def ordinaryLevel (c : Config) (t : Nat) : Int :=
  if t < c.syncBeg then c.blankLevel
  else if t < c.syncEnd then c.syncLevel
  else c.blankLevel

/-- `tmpl(n, t)` (R122, R124). -/
def templateLevel (c : Config) (n t : Nat) : Int :=
  if n ∈ c.eqLines then equalizingLevel c t
  else if c.isVsLine n then verticalSyncLevel c t
  else ordinaryLevel c t

/-- The unguarded build: every cell of every line is written (R121, R122). -/
def buildTemplate (c : Config) (m : Memory 8) : Memory 8 :=
  loop 0 c.vres (fun n m => fillLine c n 0 c.hres (templateLevel c n) m) m

/-- The guarded block shared by TEMPLATE and MODULATE (R121, R183). -/
def ensureTemplate (s : State) : State :=
  if s.fi then s else { s with sig := buildTemplate s.cfg s.sig, fi := true }

/-- TEMPLATE (R121). -/
def execTemplate (s : State) : Host.Outcome State Fault Refusal :=
  accept .template true s fun s => complete 0 (ensureTemplate s)

end Sys2Proof.Machine
end

