-- ==== Sys2Proof/Machine/Modulator.lean ====
section
/-! DEFINITION. The Scanline Modulator: the steps of one line (R185 to R193) and the command MODULATE (R181). The lines write
`SIG` and `CCF`, read neither (R32, R65), and read nothing else that MODULATE writes but `CCB`, finished before the first
line (R184); so the writes of the lines to `SIG` and those to `CCF` are two loops here. -/

namespace Sys2Proof.Machine

/-- The image size MODULATE accepts (R182). -/
def imageAccepted (s : State) : Bool :=
  unsigned16 s.srcW != 0 && unsigned16 s.srcH != 0 && unsigned16 s.srcW * unsigned16 s.srcH ≤ s.cfg.srcCap

/-- The phase at output sample 0 of line `n` (R190). -/
def startPhase (c : Config) (n : Nat) : Nat := n % 12 * 2 + if swingPositive c (n % 6) then 6 else 0

/-- The sum `ire` of one output sample (R192). -/
def lineSum (c : Config) (blackPoint : Int) (pix : PixelCode) (phase : Nat) : Int :=
  c.blackLevel + blackPoint + sample c (pixelValue pix) phase + sample c (pixelValue pix) (phase + 1)
    + sample c (pixelValue pix) (phase + 2) + sample c (pixelValue pix) (phase + 3)

/-- The rescale by the white point: multiply, divide by 110, shift by 12 (R192). -/
def rescale (ire whitePoint : Int) : Int := asr (tdiv (ire * whitePoint) 110) 12

/-- The pixel code output sample `x` of output line `y` looks up (R185, R191). -/
def sourcePixel (s : State) (y x : Nat) : PixelCode :=
  readSrc s (srcCell (unsigned16 s.srcW) (sourceRow s.cfg (unsigned16 s.srcH) y) (sourceColumn s.cfg (unsigned16 s.srcW) x))

/-- `out` at output sample `x` of output line `y`, before narrowing (R190, R192). -/
def activeOutput (s : State) (y x : Nat) : Int :=
  rescale (lineSum s.cfg (signed16 s.blackPoint) (sourcePixel s y x) (startPhase s.cfg (s.cfg.top + y) + 3 * x))
    (signed16 s.whitePoint)

/-- The burst sample of line `n` at buffer sample `t` (R188). -/
def burstAt (s : State) (n t : Nat) : Int :=
  burstSample s.cfg (signed32 (tableEntry s.ccb (groupOf n) (positionOf t)))

/-- One past the last sample of the burst window (R61). -/
def burstEnd (c : Config) : Nat := c.cbBeg + 4 * c.cbCycles

/-- Steps 2, 3 and 4 of output line `y` as writes to `SIG`: breezeway (R186), burst window (R188), active video (R193). -/
def lineSignal (s : State) (y : Nat) (m : Memory 8) : Memory 8 :=
  let c := s.cfg
  let n := c.top + y
  let breezeway := fillLine c n c.syncEnd c.cbBeg (fun _ => c.syncLevel) m
  let burst := fillLine c n c.cbBeg (burstEnd c) (burstAt s n) breezeway
  fillLine c n c.avBeg (c.avBeg + c.avLen) (fun t => wrap8 (activeOutput s y (t - c.avBeg))) burst

/-- Step 3 of output line `y` as writes to `CCF`: each written burst sample, shifted left by 7 (R189). -/
def lineCache (s : State) (y : Nat) (t : PhaseTable) : PhaseTable :=
  let n := s.cfg.top + y
  loop s.cfg.cbBeg (burstEnd s.cfg) (fun k t => tableWrite t (groupOf n) (positionOf k) (toInt32 (shl (burstAt s n k) 7))) t

/-- Every output line, in ascending order, and then the period (R184, R195). -/
def modulateLines (s : State) : State :=
  { s with
    sig := loop 0 s.cfg.lines (lineSignal s) s.sig
    ccf := loop 0 s.cfg.lines (lineCache s) s.ccf
    ccPeriod := 6 }

/-- MODULATE once its arguments are accepted (R181). -/
def modulateField (s : State) : State := modulateLines (generateBurst (ensureTemplate s))

/-- MODULATE (R181): the argument check comes before any write (R182). -/
def execModulate (s : State) : Host.Outcome State Fault Refusal :=
  accept .modulate true s fun s =>
    if imageAccepted s then complete 0 (modulateField s) else raise .invalidArgument s

end Sys2Proof.Machine
end

