-- ==== Sys2Proof/Machine/Dispatch.lean ====
section
/-! DEFINITION. exec: one arm per command (R92). -/

namespace Sys2Proof.Machine

def exec (i : Instr) (s : State) : Host.Outcome State Fault Refusal :=
  match i with
  | .nop => Sys2Proof.Machine.execNop s
  | .modulate => Sys2Proof.Machine.execModulate s
  | .template => Sys2Proof.Machine.execTemplate s
  | .burstgen => Sys2Proof.Machine.execBurstgen s
  | .sample pix phase => Sys2Proof.Machine.execSample pix phase s
  | .invalidate => Sys2Proof.Machine.execInvalidate s
  | .clrbuf => Sys2Proof.Machine.execClrbuf s
  | .wrreg reg val => Sys2Proof.Machine.execWrreg reg val s
  | .rdreg reg => Sys2Proof.Machine.execRdreg reg s
  | .wrsrc addr pix => Sys2Proof.Machine.execWrsrc addr pix s
  | .rdsig addr => Sys2Proof.Machine.execRdsig addr s
  | .rdsrc addr => Sys2Proof.Machine.execRdsrc addr s

end Sys2Proof.Machine
end

