-- ==== Sys2Proof/Machine/Interface.lean ====
section
/-! DEFINITION. The command interface (R220, R291, R292): what one turn of the host and the instance is. -/

namespace Sys2Proof.Machine

/-- The instance executes a command word: decode first, then the command's own rule (R220). -/
def runWord (cw : Word) (s : State) : Host.Outcome State Fault Refusal :=
  match decodeWord cw with
  | .ok i => exec i s
  | .error _ => .next (raise .illegalCommand s)

/-- The outcome of a command with its response returned to the host (R292). -/
def withResponse : Host.Outcome State Fault Refusal → Host.Outcome State Fault Refusal
  | .next s => .next (returnResponse s)
  | .fault r => .fault r
  | .refused r => .refused r

/-- The host's next action, taken in `IDLE` (R291). A host that has nothing left to do leaves the instance as the last
command left it (R292, log entry 7). -/
def hostTurn (s : State) : Host.Outcome State Fault Refusal :=
  match s.pending with
  | [] => .next s
  | .reset :: rest => .next (applyReset rest s)
  | .command cw :: rest => withResponse (runWord cw { s with pending := rest })

/-- One turn: only in an admitted configuration (U15), and only in `IDLE` (R220, R280, U2, U6). -/
def turn (s : State) : Host.Outcome State Fault Refusal :=
  if s.cfg.admitted then
    match s.seq with
    | .idle => hostTurn s
    | .run _ => .refused .notIdle
  else .refused .configurationNotAdmitted

/-- The host puts one command word before the rest of its program, with the instance ready to accept it. -/
def presentWord (cw : Word) (s : State) : State :=
  { s with seq := .idle, pending := .command cw :: s.pending }

/-- A program (R292) of an instance: the host is about to take these actions, first to last. -/
def withProgram (actions : List HostAction) (s : State) : State := { s with pending := actions }

end Sys2Proof.Machine
end

