-- ==== Sys2Proof/Machine/Step.lean ====
section
/-! DEFINITION. One step of the machine, and how one command word is placed to be the next the machine runs. -/

namespace Sys2Proof.Machine

/-- One step: one action of the host and, for a command, the whole operation, atomically (R4, R291). -/
def step (s : State) : Host.Outcome State Fault Refusal := turn s

/-- `s` with the command word `w` presented next (log entry 6). -/
def State.withFetchWord (s : State) (nbits w : Nat) : State := presentWord (BitVec.ofNat 32 (w % 2 ^ nbits)) s

end Sys2Proof.Machine
end

