-- ==== Sys2Proof/Machine/Instances.lean ====
section
/-! DEFINITION. Several instances side by side (R260): independent copies of the whole state, each with its own command
interface. Interleavings in time are left out (log entry 10). -/

namespace Sys2Proof.Machine

/-- One step of instance `k` of a system; a number that is no instance's changes nothing (DESIGN CHOICE, log entry 10). -/
def stepInstance (k : Nat) (system : List State) : Host.Outcome (List State) Fault Refusal :=
  match system[k]? with
  | none => .next system
  | some s =>
    match step s with
    | .next t => .next (system.set k t)
    | .fault r => .fault r
    | .refused r => .refused r

end Sys2Proof.Machine
end

