-- ==== Sys2Proof/Machine/Program.lean ====
section
/-! DEFINITION. Programs as the host writes them (R105, R292): the pseudo-operations with their expansions, the operand
spellings that stand for a number, and the text of a command. -/

namespace Sys2Proof.Machine

/-- `REBUILD` = CLRBUF then INVALIDATE (R105). -/
def rebuild : List Instr := [.clrbuf, .invalidate]

/-- `SETCAL b, w` (R105). -/
def setcal (b w : BitVec 16) : List Instr := [.wrreg 1 b, .wrreg 2 w]

/-- `SETIMG w, h` (R105). -/
def setimg (w h : BitVec 16) : List Instr := [.wrreg 4 w, .wrreg 5 h]

/-- WRSRC of a 16-bit host-side source cell: the command carries its low 9 bits (R62, R293). -/
def wrsrcHostCell (addr v : BitVec 16) : Instr := .wrsrc addr (pixelOfHostCell v)

/-- `RDSIG n, t`, meaning `addr = n*HRES + t` (R105). DESIGN CHOICE, log entry 17: a cell index that does not fit the 28 bits of
`addr28`, which R105 leaves open, stands for no command. -/
def rdsigAt (c : Config) (n t : Nat) : Option Instr :=
  if sigCell c n t < 2 ^ 28 then some (.rdsig (BitVec.ofNat 28 (sigCell c n t))) else none

/-- The register number the name `CCF[g][p]` stands for, `8 + 4*g + p` (R27, R105). -/
def ccfRegister (g : Group) (p : Position) : BitVec 5 := BitVec.ofNat 5 (8 + 4 * g + p)

/-- The host's actions for a list of commands (R292). -/
def program (cmds : List Instr) : List HostAction := cmds.map fun i => .command (encode i)

/-- A command in the textual form of R105, numbers in decimal. -/
def textOf : Instr → String
  | .nop => "NOP"
  | .modulate => "MODULATE"
  | .template => "TEMPLATE"
  | .burstgen => "BURSTGEN"
  | .sample pix phase => "SAMPLE " ++ toString pix.toNat ++ ", " ++ toString phase.toNat
  | .invalidate => "INVALIDATE"
  | .clrbuf => "CLRBUF"
  | .wrreg reg val => "WRREG " ++ toString reg.toNat ++ ", " ++ toString val.toNat
  | .rdreg reg => "RDREG " ++ toString reg.toNat
  | .wrsrc addr pix => "WRSRC " ++ toString addr.toNat ++ ", " ++ toString pix.toNat
  | .rdsig addr => "RDSIG " ++ toString addr.toNat
  | .rdsrc addr => "RDSRC " ++ toString addr.toNat

end Sys2Proof.Machine
end

