-- ==== Sys2Proof/WellFormed.lean ====
section
/-! DEFINITION. Which commands are well formed for a configuration: those that pass every check R101 makes of a word
whose format is already right. -/

namespace Sys2Proof

open Machine in
/-- The row checks of R101 items 3 to 6. -/
def Instr.wellFormed (c : Config) : Instr → Bool
  | .nop | .modulate | .template | .burstgen | .invalidate | .clrbuf => true
  | .sample _ _ => true
  | .wrreg reg _ => wrregLegal reg
  | .rdreg reg => rdregLegal reg
  | .wrsrc addr _ => srcIndexLegal c addr.toNat
  | .rdsig addr => sigIndexLegal c addr.toNat
  | .rdsrc addr => srcIndexLegal c addr.toNat

end Sys2Proof
end

