-- ==== Sys2Proof/Safety.lean ====
section
/-! DEFINITION. The terms claims use: the invariant of the machine, the illegal words of R101 in raw bits, when a run has
ended and how (R292), and the regions of a line (R61). -/

namespace Sys2Proof

open Machine

/-- The `SIG` cells the state lists are cells of the space (R60). -/
abbrev sigInSpace (s : State) : Prop := ∀ e ∈ s.sig, e.1 < s.cfg.vres * s.cfg.hres

/-- The `SRC` cells the state lists are cells of the space (R60). -/
abbrev srcInSpace (s : State) : Prop := ∀ e ∈ s.src, e.1 < s.cfg.srcCap

/-- `ERRCODE` says 0 without a failure, and 1 or 2 with one; 3 is never produced (R26). -/
abbrev errorRecorded (s : State) : Prop :=
  (s.err = false ∧ s.errcode = 0) ∨ (s.err = true ∧ (s.errcode = 1 ∨ s.errcode = 2))

/-- What every state the host can observe satisfies: an admitted configuration (R7), the sequencer in `IDLE` (R24), both
memories in canonical form and inside their spaces (R60), and a legal error record (R26). -/
abbrev consistent (s : State) : Prop :=
  s.cfg.admitted ∧ s.seq = .idle ∧ Memory.wf s.sig ∧ Memory.wf s.src ∧ sigInSpace s ∧ srcInSpace s ∧ errorRecorded s

/-- The opcode field of a command word as a number (R90). -/
abbrev opcodeOf (cw : Word) : Nat := cw.toNat / 2 ^ 28

/-- The register field of formats `RW` and `RR` as a number (R91). -/
abbrev registerOf (cw : Word) : Nat := cw.toNat / 2 ^ 23 % 2 ^ 5

/-- The words R101 calls illegal, by the bit fields of R91 as numbers. -/
abbrev illegalWord (c : Config) (cw : Word) : Prop :=
  12 ≤ opcodeOf cw ∨
  (opcodeOf cw ∈ [0, 1, 2, 3, 5, 6] ∧ cw.toNat % 2 ^ 28 ≠ 0) ∨
  (opcodeOf cw ∈ [4, 9] ∧ cw.toNat / 2 ^ 25 % 2 ^ 3 ≠ 0) ∨
  (opcodeOf cw = 7 ∧ cw.toNat / 2 ^ 16 % 2 ^ 7 ≠ 0) ∨
  (opcodeOf cw = 8 ∧ cw.toNat % 2 ^ 23 ≠ 0) ∨
  (opcodeOf cw = 7 ∧ ¬ (1 ≤ registerOf cw ∧ registerOf cw ≤ 5)) ∨
  (opcodeOf cw = 8 ∧ registerOf cw = 7) ∨
  (opcodeOf cw = 10 ∧ c.vres * c.hres ≤ cw.toNat % 2 ^ 28) ∨
  (opcodeOf cw = 11 ∧ c.srcCap ≤ cw.toNat % 2 ^ 28) ∨
  (opcodeOf cw = 9 ∧ c.srcCap ≤ cw.toNat / 2 ^ 9 % 2 ^ 16)

/-- The commands that R255 refuses while `ERR = 1`. -/
def changesState : Instr → Bool
  | .nop | .rdreg _ | .rdsig _ | .rdsrc _ => false
  | .modulate | .template | .burstgen | .sample _ _ | .invalidate | .clrbuf | .wrreg _ _ | .wrsrc _ _ => true

/-- The image dimensions MODULATE accepts (R182). -/
abbrev imageFits (s : State) : Prop :=
  s.srcW.toNat ≠ 0 ∧ s.srcH.toNat ≠ 0 ∧ s.srcW.toNat * s.srcH.toNat ≤ s.cfg.srcCap

/-- Sample `t` of line `n` is one that every MODULATE writes (R74): breezeway, burst window or active window of a
modulated line. -/
abbrev rewritten (c : Config) (n t : Nat) : Prop :=
  (c.top ≤ n ∧ n < c.top + c.lines) ∧
    ((c.syncEnd ≤ t ∧ t < c.cbBeg + 4 * c.cbCycles) ∨ (c.avBeg ≤ t ∧ t < c.avBeg + c.avLen))

/-- The host has nothing left to do: the run has ended (R292). -/
def runEnded (s : State) : Bool := s.pending.isEmpty

/-- A run that ended cleanly (R292). -/
def endedCleanly (s : State) : Bool := runEnded s && !s.err

/-- A run that ended failed (R292). -/
def endedFailed (s : State) : Bool := runEnded s && s.err

/-- How many of the host's actions are commands, each of which returns a response (R292). -/
def commandCount : List HostAction → Nat
  | [] => 0
  | .command _ :: rest => commandCount rest + 1
  | .reset :: rest => commandCount rest

end Sys2Proof
end

