-- ==== Sys2Proof/Certificates/Slice0/Obligations.lean ====
section
/-! DEFINITION. The statements for the provers: what the block does, rule by rule. -/

open Sys2Proof Sys2Proof.Machine

/-! Encoding -/

/-- R91, R94: a few words written out from the spec's encodings, and the commands they stand for. -/
def Obligations.WordsOfTheSpecDecode : Prop :=
  decodeWord 0x40000C16 = .ok (.sample 0x016 6) ∧
  decodeWord 0x71000064 = .ok (.wrreg 2 100) ∧
  decodeWord 0x83000000 = .ok (.rdreg 6) ∧
  decodeWord 0x900007E1 = .ok (.wrsrc 3 0x1E1) ∧
  decodeWord 0xA00001FC = .ok (.rdsig 508) ∧
  decodeWord 0x10000001 = .error .reservedField ∧
  decodeWord 0xC0000000 = .error .reservedOpcode

/-- R90 to R94: decoding the word of any command, or its bytes before any others, gives back that command. -/
def Obligations.DecodingAnEncodedCommandGivesItBack : Prop :=
  (∀ i : Instr, decodeWord (encode i) = .ok i) ∧
  (∀ (i : Instr) (rest : List Byte), decodeBytes (encodeBytes i ++ rest) = .ok (i, rest))

/-- R63: the 16-bit host-side source cell travels low byte first, and arrives as it was sent. -/
def Obligations.HostCellTravelsLowByteFirst : Prop :=
  (∀ v : BitVec 16, (bytesOfCell v).map BitVec.toNat = [v.toNat % 256, v.toNat / 256]) ∧
  (∀ b0 b1 : Byte, (cellOfBytes b0 b1).toNat = b0.toNat + 256 * b1.toNat ∧ bytesOfCell (cellOfBytes b0 b1) = [b0, b1])

/-- R91, R92: a word that decodes to a command is that command's word, so no bit of a word is ignored. -/
def Obligations.EveryCommandHasOneWord : Prop :=
  ∀ (cw : Word) (i : Instr), decodeWord cw = .ok i → encode i = cw

/-- R101: a word is legal exactly when it decodes to a command that passes the checks of its row. -/
def Obligations.LegalWordsAreThoseThatDecodeWellFormed : Prop :=
  ∀ (c : Config) (cw : Word),
    ¬ illegalWord c cw ↔ ∃ i, decodeWord cw = .ok i ∧ i.wellFormed c = true

/-! Steps -/

/-- R220, R291, R292: a command word presented in `IDLE` is decoded, executed as one step, and its response returned. -/
def Obligations.StepRunsTheDecodedCommand : Prop :=
  ∀ (s t : State) (cw : Word) (rest : List HostAction) (i : Instr),
    s.cfg.admitted → s.seq = .idle → s.pending = .command cw :: rest → decodeWord cw = .ok i →
    exec i { s with pending := rest } = .next t →
    step s = .next { t with responses := t.responses ++ [t.resp] }

/-- R292 and log entry 7 (DESIGN CHOICE): with nothing left for the host to do, the state stays that of the last command. -/
def Obligations.StepWithNothingToDoKeepsTheState : Prop :=
  ∀ s : State, s.cfg.admitted → s.seq = .idle → s.pending = [] → step s = .next s

/-- R220, R280 with U2, U6, U15: there is no step while an operation runs, and none in a configuration not admitted. -/
def Obligations.NoStepOutsideIdleOrAdmission : Prop :=
  (∀ (s : State) (op : Operation), s.cfg.admitted → s.seq = .run op → step s = .refused .notIdle) ∧
  (∀ s : State, ¬ s.cfg.admitted → step s = .refused .configurationNotAdmitted)

/-- R101, R220, R252: an illegal word raises `IllegalCommand` and does nothing else, whatever the state of `ERR`. -/
def Obligations.IllegalWordRaisesAndDoesNothingElse : Prop :=
  ∀ (s : State) (cw : Word) (rest : List HostAction),
    s.cfg.admitted → s.seq = .idle → s.pending = .command cw :: rest → illegalWord s.cfg cw →
    step s = .next { s with
      pending := rest
      err := true
      errcode := if s.err then s.errcode else 2
      resp := 0
      responses := s.responses ++ [0] }

/-- R24, R198: every command of every kind completes, with the sequencer back in `IDLE`, and touches neither the
configuration nor the host's side of the interface. -/
def Obligations.EveryCommandCompletesInIdle : Prop :=
  ∀ (i : Instr) (s : State), ∃ t, exec i s = .next t ∧ t.seq = .idle ∧ t.cfg = s.cfg ∧
    t.pending = s.pending ∧ t.responses = s.responses ∧ t.resetCount = s.resetCount

/-- R292: a run always ends: as many steps as the host has actions left take the machine, from any consistent state, to one
with none left, in `IDLE`, with one response for each command. R292's programs hold command words only; that a reset among the
actions keeps the rest of them and the responses so far is log entry 8 (DESIGN CHOICE). -/
def Obligations.EveryRunEnds : Prop :=
  ∀ s : State, consistent s → ∃ t, Sys2Proof.core.run s.pending.length s = .next t ∧
    runEnded t = true ∧ t.seq = .idle ∧
    t.responses.length = s.responses.length + commandCount s.pending

/-! Reset -/

/-- R38: what every state right after reset holds, in every configuration. The unspecified cells hold the free values of log
entry 2 (DESIGN CHOICE: the reset count and the indexing by it). -/
def Obligations.ResetLeavesTheTabulatedValues : Prop :=
  ∀ (c : Config) (k : Nat),
    (State.afterReset c k).fi = false ∧ (State.afterReset c k).err = false ∧ (State.afterReset c k).errcode = 0 ∧
    (State.afterReset c k).seq = .idle ∧ (State.afterReset c k).blackPoint = c.resetBlackPoint ∧
    (State.afterReset c k).whitePoint = c.resetWhitePoint ∧ (State.afterReset c k).hue = 0 ∧
    (State.afterReset c k).srcW = 0 ∧ (State.afterReset c k).srcH = 0 ∧
    (State.afterReset c k).ccPeriod = Config.ccPeriodAtReset k ∧
    (∀ g p, tableEntry (State.afterReset c k).ccf g p = Config.ccfAtReset k g p ∧
      tableEntry (State.afterReset c k).ccb g p = Config.ccbAtReset k g p) ∧
    (∀ a, readSig (State.afterReset c k) a = Config.sigAtReset k a ∧
      readSrc (State.afterReset c k) a = Config.srcAtReset k a)

/-- R280 and log entry 8 (DESIGN CHOICE, what the host keeps): applying reset in `IDLE` puts the instance into the reset state of its own configuration, `ERR` cleared, and the
host goes on with the rest of its program. -/
def Obligations.ApplyingResetGivesTheResetState : Prop :=
  ∀ (s : State) (rest : List HostAction),
    s.cfg.admitted → s.seq = .idle → s.pending = .reset :: rest →
    step s = .next { State.afterReset s.cfg (s.resetCount + 1) with pending := rest, responses := s.responses }

/-! Exceptions -/

/-- R254: `raise` records the first cause only, answers 0, ends the command and changes nothing else: for `IllegalCommand`
from every command that fails its row's checks, and for `InvalidArgument` from MODULATE. -/
def Obligations.RaiseRecordsTheFirstCauseOnly : Prop :=
  (∀ (i : Instr) (s : State), i.wellFormed s.cfg = false →
    exec i s = .next { s with
      err := true, errcode := if s.err then s.errcode else 2, resp := 0, seq := .idle }) ∧
  (∀ s : State, s.err = false → ¬ imageFits s →
    exec .modulate s = .next { s with err := true, errcode := 1, resp := 0, seq := .idle })

/-- R182: MODULATE raises `InvalidArgument` exactly for the three image sizes the rule names, before any write; no other
input makes it fail. -/
def Obligations.ModulateFailsExactlyOnBadImageSizes : Prop :=
  (∀ s : State, s.err = false →
    (s.srcW.toNat = 0 ∨ s.srcH.toNat = 0 ∨ s.cfg.srcCap < s.srcW.toNat * s.srcH.toNat) →
    exec .modulate s = .next { s with err := true, errcode := 1, resp := 0, seq := .idle }) ∧
  (∀ s : State, s.err = false → s.srcW.toNat ≠ 0 → s.srcH.toNat ≠ 0 →
    s.srcW.toNat * s.srcH.toNat ≤ s.cfg.srcCap →
    ∃ t, exec .modulate s = .next t ∧ t.err = false)

/-- R255: while `ERR = 1` the eight state-changing commands are refused, with no change of state and the answer 0, and the
four others answer just what they would answer if `STATUS` apart nothing had failed. -/
def Obligations.ErrorRefusesStateChangingCommands : Prop :=
  (∀ (i : Instr) (s : State), s.err = true → i.wellFormed s.cfg = true → changesState i = true →
    exec i s = .next { s with resp := 0, seq := .idle }) ∧
  (∀ (i : Instr) (s : State), s.err = true → i.wellFormed s.cfg = true → changesState i = false →
    ∃ v, exec i s = .next { s with resp := v, seq := .idle } ∧
      (i ≠ .rdreg 0 → exec i { s with err := false } = .next { s with err := false, resp := v, seq := .idle }))

/-- R26, R255: after a failure no step but a reset changes anything of the instance: `ERR`, the first cause, and all that
the failed command left untouched stay; only responses are returned. -/
def Obligations.OnlyResetLeavesTheErrorState : Prop :=
  ∀ s t : State, s.err = true → step s = .next t → (∀ rest, s.pending ≠ .reset :: rest) →
    t = { s with resp := t.resp, pending := t.pending, responses := t.responses }

/-- R253: the legality of a word is tested before MODULATE's own precondition. Where the image does not fit, a word of opcode 1
with a reserved bit set records `IllegalCommand`, the word of MODULATE records `InvalidArgument`; and while `ERR = 1` either only
answers 0. -/
def Obligations.IllegalityComesBeforeTheImageCheck : Prop :=
  ∀ (s : State) (cw : Word) (rest : List HostAction),
    s.cfg.admitted → s.seq = .idle → ¬ imageFits s → s.pending = .command cw :: rest →
    (cw.toNat / 2 ^ 28 = 1 → cw.toNat % 2 ^ 28 ≠ 0 → step s = .next { s with
      pending := rest, err := true, errcode := if s.err then s.errcode else 2, resp := 0, responses := s.responses ++ [0] }) ∧
    (cw = 0x10000000 → step s = .next { s with
      pending := rest, err := true, errcode := if s.err then s.errcode else 1, resp := 0, responses := s.responses ++ [0] })

/-! Host commands -/

/-- R222: NOP answers 0 and changes nothing, also while `ERR = 1`. -/
def Obligations.NopAnswersZero : Prop :=
  encode .nop = 0x00000000 ∧ ∀ s : State, exec .nop s = .next { s with resp := 0, seq := .idle }

/-- R224: INVALIDATE clears `FI` and touches nothing else. -/
def Obligations.InvalidateClearsTheFlag : Prop :=
  encode .invalidate = 0x50000000 ∧
  ∀ s : State, s.err = false → exec .invalidate s = .next { s with fi := false, resp := 0, seq := .idle }

/-- R225: CLRBUF writes 0 to every cell of `SIG` and touches nothing else, `FI` included. -/
def Obligations.ClrbufZeroesEveryCell : Prop :=
  encode .clrbuf = 0x60000000 ∧
  ∀ s : State, s.err = false → ∃ t, exec .clrbuf s = .next t ∧
    t = { s with sig := t.sig, resp := 0, seq := .idle } ∧
    (∀ a, a < s.cfg.vres * s.cfg.hres → readSig t a = 0) ∧
    (∀ a, s.cfg.vres * s.cfg.hres ≤ a → readSig t a = readSig s a)

/-- R226: WRREG stores all 16 bits in the register it names, 1 to 5, and raises `IllegalCommand` for any other number or a
non-zero reserved field. -/
def Obligations.WrregWritesTheNamedRegister : Prop :=
  (∀ (reg : BitVec 5) (v : BitVec 16),
    (encode (.wrreg reg v)).toNat = 0x70000000 + reg.toNat * 2 ^ 23 + v.toNat) ∧
  (∀ (s : State) (v : BitVec 16), s.err = false →
    exec (.wrreg 1 v) s = .next { s with blackPoint := v, resp := 0, seq := .idle } ∧
    exec (.wrreg 2 v) s = .next { s with whitePoint := v, resp := 0, seq := .idle } ∧
    exec (.wrreg 3 v) s = .next { s with hue := v, resp := 0, seq := .idle } ∧
    exec (.wrreg 4 v) s = .next { s with srcW := v, resp := 0, seq := .idle } ∧
    exec (.wrreg 5 v) s = .next { s with srcH := v, resp := 0, seq := .idle }) ∧
  (∀ (s : State) (reg : BitVec 5) (v : BitVec 16), s.err = false → ¬ (1 ≤ reg.toNat ∧ reg.toNat ≤ 5) →
    exec (.wrreg reg v) s = .next { s with err := true, errcode := 2, resp := 0, seq := .idle }) ∧
  (∀ cw : Word, cw.toNat / 2 ^ 28 = 7 → cw.toNat / 2 ^ 16 % 2 ^ 7 ≠ 0 → decodeWord cw = .error .reservedField)

/-- R27, R227: RDREG answers the 32-bit view of every register of the map and changes nothing; number 7 raises. -/
def Obligations.RdregAnswersTheRegisterView : Prop :=
  (∀ reg : BitVec 5, (encode (.rdreg reg)).toNat = 0x80000000 + reg.toNat * 2 ^ 23) ∧
  (∀ s : State,
    exec (.rdreg 0) s = .next { s with
      resp := BitVec.ofNat 32 (s.fi.toNat + 2 * s.err.toNat + 4 * s.errcode.toNat), seq := .idle } ∧
    exec (.rdreg 1) s = .next { s with resp := BitVec.ofInt 32 s.blackPoint.toInt, seq := .idle } ∧
    exec (.rdreg 2) s = .next { s with resp := BitVec.ofInt 32 s.whitePoint.toInt, seq := .idle } ∧
    exec (.rdreg 3) s = .next { s with resp := BitVec.ofInt 32 s.hue.toInt, seq := .idle } ∧
    exec (.rdreg 4) s = .next { s with resp := BitVec.ofNat 32 s.srcW.toNat, seq := .idle } ∧
    exec (.rdreg 5) s = .next { s with resp := BitVec.ofNat 32 s.srcH.toNat, seq := .idle } ∧
    exec (.rdreg 6) s = .next { s with resp := BitVec.ofNat 32 s.ccPeriod.toNat, seq := .idle } ∧
    (∀ (g : Group) (p : Position), exec (.rdreg (BitVec.ofNat 5 (8 + 4 * g + p))) s =
      .next { s with resp := tableEntry s.ccf g p, seq := .idle })) ∧
  (∀ s : State, s.err = false →
    exec (.rdreg 7) s = .next { s with err := true, errcode := 2, resp := 0, seq := .idle }) ∧
  (∀ cw : Word, cw.toNat / 2 ^ 28 = 8 → cw.toNat % 2 ^ 23 ≠ 0 → decodeWord cw = .error .reservedField)

/-- R228: WRSRC writes one cell of `SRC` and nothing else; an index past the memory raises. -/
def Obligations.WrsrcWritesOneCell : Prop :=
  (∀ (addr : BitVec 16) (pix : PixelCode),
    (encode (.wrsrc addr pix)).toNat = 0x90000000 + addr.toNat * 2 ^ 9 + pix.toNat) ∧
  (∀ (s : State) (addr : BitVec 16) (pix : PixelCode), s.err = false → addr.toNat < s.cfg.srcCap →
    ∃ t, exec (.wrsrc addr pix) s = .next t ∧
      t = { s with src := t.src, resp := 0, seq := .idle } ∧
      readSrc t addr.toNat = pix ∧ ∀ a, a ≠ addr.toNat → readSrc t a = readSrc s a) ∧
  (∀ (s : State) (addr : BitVec 16) (pix : PixelCode), s.err = false → s.cfg.srcCap ≤ addr.toNat →
    exec (.wrsrc addr pix) s = .next { s with err := true, errcode := 2, resp := 0, seq := .idle }) ∧
  (∀ cw : Word, cw.toNat / 2 ^ 28 = 9 → cw.toNat / 2 ^ 25 % 2 ^ 3 ≠ 0 → decodeWord cw = .error .reservedField)

/-- R62, R293: WRSRC of a 16-bit host-side cell stores its low 9 bits and drops the others, and leaves every other cell and
register as it was. -/
def Obligations.WrsrcKeepsTheLowNineBitsOfAHostCell : Prop :=
  ∀ (s : State) (addr v : BitVec 16), s.err = false → addr.toNat < s.cfg.srcCap →
    ∃ t, exec (wrsrcHostCell addr v) s = .next t ∧ t = { s with src := t.src, resp := 0, seq := .idle } ∧
      (readSrc t addr.toNat).toNat = v.toNat % 2 ^ 9 ∧
      (hostCellOfPixel (readSrc t addr.toNat)).toNat = v.toNat % 2 ^ 9 ∧
      ∀ a, a ≠ addr.toNat → readSrc t a = readSrc s a

/-- R229: RDSIG answers one cell of `SIG`, sign-extended, and changes nothing; an index past the buffer raises. -/
def Obligations.RdsigAnswersTheCell : Prop :=
  (∀ addr : BitVec 28, (encode (.rdsig addr)).toNat = 0xA0000000 + addr.toNat) ∧
  (∀ (s : State) (addr : BitVec 28), addr.toNat < s.cfg.vres * s.cfg.hres →
    exec (.rdsig addr) s = .next { s with resp := BitVec.ofInt 32 (readSig s addr.toNat).toInt, seq := .idle }) ∧
  (∀ (s : State) (addr : BitVec 28), s.err = false → s.cfg.vres * s.cfg.hres ≤ addr.toNat →
    exec (.rdsig addr) s = .next { s with err := true, errcode := 2, resp := 0, seq := .idle })

/-- R230: RDSRC answers one cell of `SRC`, zero-extended, and changes nothing; an index past the memory raises. -/
def Obligations.RdsrcAnswersTheCell : Prop :=
  (∀ addr : BitVec 28, (encode (.rdsrc addr)).toNat = 0xB0000000 + addr.toNat) ∧
  (∀ (s : State) (addr : BitVec 28), addr.toNat < s.cfg.srcCap →
    exec (.rdsrc addr) s = .next { s with resp := BitVec.ofNat 32 (readSrc s addr.toNat).toNat, seq := .idle }) ∧
  (∀ (s : State) (addr : BitVec 28), s.err = false → s.cfg.srcCap ≤ addr.toNat →
    exec (.rdsrc addr) s = .next { s with err := true, errcode := 2, resp := 0, seq := .idle })

/-! The sampler -/

/-- R140, R147: SAMPLE answers the amplitude of R147, with its flags written out from the rule, and changes nothing. -/
def Obligations.SampleAnswersTheAmplitude : Prop :=
  (∀ (pix : PixelCode) (phase : BitVec 16),
    (encode (.sample pix phase)).toNat = 0x40000000 + phase.toNat * 2 ^ 9 + pix.toNat) ∧
  (∀ (s : State) (pix : PixelCode) (phase : BitVec 16), s.err = false →
    ∃ amplitude : Int,
      exec (.sample pix phase) s = .next { s with resp := BitVec.ofInt 32 amplitude, seq := .idle } ∧
      (14 ≤ pix.toNat % 16 → amplitude = 0) ∧
      (pix.toNat % 16 < 14 → ∀ (l e : Bool) (mask : BitVec 3),
        s.cfg.emphMask.toList[phase.toNat / 2 % 6]? = some mask →
        (l = true ↔ pix.toNat % 16 = s.cfg.hueWhite ∨
          (pix.toNat % 16 ≠ s.cfg.hueBlack ∧ (pix.toNat % 16 + phase.toNat) % 12 < 6)) →
        (e = true ↔ pix.toNat / 64 &&& mask.toNat ≠ 0) →
        s.cfg.ireTable.toList[8 * l.toNat + 4 * e.toNat + pix.toNat / 16 % 4]? = some amplitude))

/-- R150: hue indices 14 and 15 sample to 0 at every phase, and the luminance decision of the two special hues does not
depend on the phase. -/
def Obligations.ReservedHuesDoNotFollowThePhase : Prop :=
  (∀ (c : Config) (p : Int) (phase : Nat), 14 ≤ p % 16 → Machine.sample c p phase = 0) ∧
  (∀ (c : Config) (p : Int) (phase : Nat), p % 16 = c.hueWhite → luminanceActive c p phase = true) ∧
  (∀ (c : Config) (p : Int) (phase : Nat), p % 16 = c.hueBlack → c.hueWhite ≠ c.hueBlack →
    luminanceActive c p phase = false)

/-- R141, R147, R149: the sampler has period 12 in the phase and ignores every bit of the code above bit 8. -/
def Obligations.SamplerHasPeriodTwelveAndReadsNineBits : Prop :=
  ∀ (c : Config) (p k : Int) (phase : Nat),
    Machine.sample c p (phase + 12) = Machine.sample c p phase ∧
    Machine.sample c (p + 512 * k) phase = Machine.sample c p phase

/-! The template -/

/-- R123 to R127: the pattern of each class of line, region by region. -/
def Obligations.TemplatePatternByRegion : Prop :=
  ∀ (c : Config) (n t : Nat),
    (n ∈ c.eqLines → templateLevel c n t =
      if t < 4 * c.hres / 100 then c.syncLevel else if t < 50 * c.hres / 100 then c.blankLevel
      else if t < 54 * c.hres / 100 then c.syncLevel else c.blankLevel) ∧
    (n ∉ c.eqLines → (c.vsFirst ≤ n ∧ n ≤ c.vsFirst + 2) → templateLevel c n t =
      if t < 46 * c.hres / 100 then c.syncLevel else if t < 50 * c.hres / 100 then c.blankLevel
      else if t < 96 * c.hres / 100 then c.syncLevel else c.blankLevel) ∧
    (n ∉ c.eqLines → ¬ (c.vsFirst ≤ n ∧ n ≤ c.vsFirst + 2) → templateLevel c n t =
      if t < c.syncBeg then c.blankLevel else if t < c.syncEnd then c.syncLevel else c.blankLevel)

/-- R121, R122: TEMPLATE with `FI = 0` writes the pattern to every cell of `SIG` and sets `FI`; with `FI = 1` it writes
nothing. -/
def Obligations.TemplateBuildsOnceUnderItsFlag : Prop :=
  encode .template = 0x20000000 ∧
  (∀ s : State, s.err = false → s.fi = true → exec .template s = .next { s with resp := 0, seq := .idle }) ∧
  (∀ s : State, s.err = false → s.fi = false → ∃ t, exec .template s = .next t ∧
    t = { s with sig := t.sig, fi := true, resp := 0, seq := .idle } ∧
    (∀ n k, n < s.cfg.vres → k < s.cfg.hres →
      readSig t (n * s.cfg.hres + k) = BitVec.ofInt 8 (templateLevel s.cfg n k)) ∧
    (∀ a, s.cfg.vres * s.cfg.hres ≤ a → readSig t a = readSig s a))

/-- R128: a second TEMPLATE changes no cell, and an unguarded build gives the same buffer whatever stood in it before. -/
def Obligations.TemplateIsIdempotent : Prop :=
  (∀ s : State, s.err = false → ∃ t, exec .template s = .next t ∧ exec .template t = .next t) ∧
  (∀ (s : State) (m : Memory 8), s.err = false → s.fi = false →
    ∃ t t', exec .template s = .next t ∧ exec .template { s with sig := m } = .next t' ∧
      ∀ a, a < s.cfg.vres * s.cfg.hres → readSig t a = readSig t' a)

/-! The burst generator -/

/-- R161 to R165, R167: BURSTGEN leaves in both tables the reduced sine of every burst angle, exactly, and touches neither
`SIG` nor `CC_PERIOD`. -/
def Obligations.BurstgenFillsBothTables : Prop :=
  encode .burstgen = 0x30000000 ∧
  ∀ s : State, s.err = false → ∃ t, exec .burstgen s = .next t ∧
    t = { s with ccb := t.ccb, ccf := t.ccb, resp := 0, seq := .idle } ∧
    ∀ (g : Group) (p : Position), (tableEntry t.ccb g p).toInt =
      sine s.cfg (Int.tdiv ((60 * (g : Nat) + s.hue.toInt + 90 * (p : Nat) + 135
        + (if ((g : Nat) % 2 = 0) = (s.cfg.swingEvenPositive = true) then 60 else -60)) * s.cfg.trigHalfTurn) 180)
        / 2 ^ s.cfg.burstSinShift

/-- R171 (c), which the model imposes on an external primitive (log entry 3, DESIGN CHOICE): the sine component is bounded by 2^15
for every argument. -/
def Obligations.SineIsBounded : Prop :=
  ∀ (c : Config) (u : Int), -2 ^ 15 ≤ sine c u ∧ sine c u ≤ 2 ^ 15

/-! The modulator -/

/-- R181, R195: MODULATE with an image that fits completes, sets `FI`, leaves 6 in `CC_PERIOD`, and changes nothing but
`SIG`, `CCB`, `CCF`, `CC_PERIOD` and `FI`. -/
def Obligations.ModulateCompletesAndSetsThePeriod : Prop :=
  ∀ s : State, s.err = false → imageFits s → ∃ t, exec .modulate s = .next t ∧
    t = { s with
      sig := t.sig, ccb := t.ccb, ccf := t.ccf, ccPeriod := 6, fi := true, resp := 0, seq := .idle }

/-- R183, R74: outside the breezeway, burst and active windows of the modulated lines, a MODULATE with `FI = 0` leaves the
template and one with `FI = 1` leaves every cell as it was. -/
def Obligations.ModulateKeepsTheTimingRegions : Prop :=
  ∀ s : State, s.cfg.admitted → s.err = false → imageFits s → ∃ t, exec .modulate s = .next t ∧
    (∀ n k, n < s.cfg.vres → k < s.cfg.hres → ¬ rewritten s.cfg n k →
      readSig t (n * s.cfg.hres + k) =
        if s.fi then readSig s (n * s.cfg.hres + k) else BitVec.ofInt 8 (templateLevel s.cfg n k)) ∧
    (∀ a, s.cfg.vres * s.cfg.hres ≤ a → readSig t a = readSig s a)

/-- R186: the breezeway of every modulated line is at sync level. -/
def Obligations.ModulateFillsTheBreezeway : Prop :=
  ∀ s : State, s.cfg.admitted → s.err = false → imageFits s → ∃ t, exec .modulate s = .next t ∧
    ∀ y k, y < s.cfg.lines → s.cfg.syncEnd ≤ k → k < s.cfg.cbBeg →
      (readSig t ((s.cfg.top + y) * s.cfg.hres + k)).toInt = s.cfg.syncLevel

/-- R184, R188: the table is that of BURSTGEN, and the burst window of line `n` holds the burst sample of entry
`[n mod 6][k mod 4]`. -/
def Obligations.ModulateWritesTheBurstWindow : Prop :=
  ∀ s : State, s.cfg.admitted → s.err = false → imageFits s → ∃ t u,
    exec .modulate s = .next t ∧ exec .burstgen s = .next u ∧ t.ccb = u.ccb ∧
    ∀ y k, y < s.cfg.lines → s.cfg.cbBeg ≤ k → k < s.cfg.cbBeg + 4 * s.cfg.cbCycles →
      (readSig t ((s.cfg.top + y) * s.cfg.hres + k)).toInt =
        wrap8 ((s.cfg.blankLevel +
          (tableEntry t.ccb (Fin.ofNat 6 (s.cfg.top + y)) (Fin.ofNat 4 k)).toInt * s.cfg.burstLevel)
          / 2 ^ s.cfg.burstOutShift)

/-- R189: every entry of the cache is the burst sample written for it, times 128. -/
def Obligations.ModulateRecordsTheWrittenBurst : Prop :=
  ∀ s : State, s.cfg.admitted → s.err = false → imageFits s → ∃ t, exec .modulate s = .next t ∧
    ∀ (g : Group) (p : Position), (tableEntry t.ccf g p).toInt =
      128 * wrap8 ((s.cfg.blankLevel + (tableEntry t.ccb g p).toInt * s.cfg.burstLevel) / 2 ^ s.cfg.burstOutShift)

/-- R190 to R193: every active-video sample is the rescaled, narrowed sum of the black levels and four sampler taps. -/
def Obligations.ModulateWritesTheActiveVideo : Prop :=
  ∀ s : State, s.cfg.admitted → s.err = false → imageFits s → ∃ t, exec .modulate s = .next t ∧
    ∀ y x, y < s.cfg.lines → x < s.cfg.avLen →
      (readSig t ((s.cfg.top + y) * s.cfg.hres + (s.cfg.avBeg + x))).toInt =
        let n := s.cfg.top + y
        let pix : Int := (readSrc s (y * s.srcH.toNat / s.cfg.lines * s.srcW.toNat + x * s.srcW.toNat / s.cfg.avLen)).toNat
        let phase := n % 12 * 2 + (if (n % 2 = 0) = (s.cfg.swingEvenPositive = true) then 6 else 0) + 3 * x
        let ire := s.cfg.blackLevel + s.blackPoint.toInt + Machine.sample s.cfg pix phase
          + Machine.sample s.cfg pix (phase + 1) + Machine.sample s.cfg pix (phase + 2)
          + Machine.sample s.cfg pix (phase + 3)
        wrap8 (Int.tdiv (ire * s.whitePoint.toInt) 110 / 2 ^ 12)

/-- R196, property 6: an image of black codes gives every active-video sample the level the formula has with a sampler
contribution of 0. -/
def Obligations.BlackImageGivesTheBlackLevel : Prop :=
  ∀ s : State, s.cfg.admitted → s.err = false → imageFits s →
    (∀ a, a < s.srcW.toNat * s.srcH.toNat → 14 ≤ (readSrc s a).toNat % 16) →
    ∃ t, exec .modulate s = .next t ∧
      ∀ y x, y < s.cfg.lines → x < s.cfg.avLen →
        (readSig t ((s.cfg.top + y) * s.cfg.hres + (s.cfg.avBeg + x))).toInt =
          wrap8 (Int.tdiv ((s.cfg.blackLevel + s.blackPoint.toInt) * s.whitePoint.toInt) 110 / 2 ^ 12)

/-- R286: a MODULATE after a CLRBUF alone leaves 0 wherever it writes nothing, so the sync and blanking skeleton is gone; after
an INVALIDATE alone it restores the skeleton there. -/
def Obligations.ClearingAloneLosesTheTiming : Prop :=
  (∀ s : State, s.cfg.admitted → s.err = false → s.fi = true → imageFits s → ∃ t u,
    exec .clrbuf s = .next t ∧ exec .modulate t = .next u ∧
    ∀ n k, n < s.cfg.vres → k < s.cfg.hres → ¬ rewritten s.cfg n k → readSig u (n * s.cfg.hres + k) = 0) ∧
  (∀ s : State, s.cfg.admitted → s.err = false → imageFits s → ∃ t u,
    exec .invalidate s = .next t ∧ exec .modulate t = .next u ∧
    ∀ n k, n < s.cfg.vres → k < s.cfg.hres → ¬ rewritten s.cfg n k →
      readSig u (n * s.cfg.hres + k) = BitVec.ofInt 8 (templateLevel s.cfg n k))

/-- R172: the period is 6 after every MODULATE, and the burst windows of two lines hold the same values where the residues
of line and sample agree, whatever else differs. -/
def Obligations.BurstDependsOnResiduesOnly : Prop :=
  ∀ s : State, s.cfg.admitted → s.err = false → imageFits s → ∃ t, exec .modulate s = .next t ∧ t.ccPeriod = 6 ∧
    ∀ y y' k k', y < s.cfg.lines → y' < s.cfg.lines → (s.cfg.top + y) % 6 = (s.cfg.top + y') % 6 →
      s.cfg.cbBeg ≤ k → k < s.cfg.cbBeg + 4 * s.cfg.cbCycles →
      s.cfg.cbBeg ≤ k' → k' < s.cfg.cbBeg + 4 * s.cfg.cbCycles → k % 4 = k' % 4 →
      readSig t ((s.cfg.top + y) * s.cfg.hres + k) = readSig t ((s.cfg.top + y') * s.cfg.hres + k')

/-- R196: a second MODULATE with nothing changed between leaves every cell and register as the first left it. -/
def Obligations.SecondModulateChangesNothing : Prop :=
  ∀ s : State, s.cfg.admitted → s.err = false → imageFits s → ∃ t t',
    exec .modulate s = .next t ∧ exec .modulate t = .next t' ∧
    t' = { t with sig := t'.sig } ∧ ∀ a, readSig t' a = readSig t a

/-- R196: the hue angle changes no active-video sample. -/
def Obligations.HueDoesNotReachTheActiveVideo : Prop :=
  ∀ (s : State) (hue : BitVec 16), s.cfg.admitted → s.err = false → imageFits s → ∃ t t',
    exec .modulate s = .next t ∧ exec .modulate { s with hue := hue } = .next t' ∧
    ∀ y x, y < s.cfg.lines → x < s.cfg.avLen →
      readSig t ((s.cfg.top + y) * s.cfg.hres + (s.cfg.avBeg + x)) =
        readSig t' ((s.cfg.top + y) * s.cfg.hres + (s.cfg.avBeg + x))

/-- R196: `SRC` cells outside the image are never read: images that agree inside `0 .. SRC_W*SRC_H - 1` give the same
field, the same cache and the same error record. -/
def Obligations.CellsOutsideTheImageAreNeverRead : Prop :=
  ∀ (s : State) (m : Memory 9),
    (∀ a, a < s.srcW.toNat * s.srcH.toNat → readSrc { s with src := m } a = readSrc s a) →
    ∃ t, exec .modulate s = .next t ∧ exec .modulate { s with src := m } = .next { t with src := m }

/-- R64, R66: the source index of every output sample is inside the image, and the clamp of the row never acts. -/
def Obligations.SourceIndexStaysInsideTheImage : Prop :=
  ∀ (c : Config) (w h y x : Nat), 1 ≤ w → 1 ≤ h → y < c.lines → x < c.avLen →
    sourceRow c h y = y * h / c.lines ∧ sourceRow c h y ≤ h - 1 ∧ sourceColumn c w x ≤ w - 1 ∧
    srcCell w (sourceRow c h y) (sourceColumn c w x) < w * h

/-- R197: before narrowing, the rescaled value does not fall as the white point rises where the sum is not negative, and
does not rise where the sum is negative. -/
def Obligations.RescaleIsMonotoneInTheWhitePoint : Prop :=
  ∀ ire wp wp' : Int, wp ≤ wp' →
    (0 ≤ ire → rescale ire wp ≤ rescale ire wp') ∧ (ire < 0 → rescale ire wp' ≤ rescale ire wp)

/-! The whole machine -/

/-- R7, R24, R26, R60: every step from a consistent state leaves a consistent state. -/
def Obligations.EveryStepKeepsTheStateConsistent : Prop :=
  ∀ s t : State, consistent s → step s = .next t → consistent t

/-- The reset state is consistent, in every admitted configuration and in the one of log entry 1 (DESIGN CHOICE). -/
def Obligations.ResetStateIsConsistent : Prop :=
  (∀ (c : Config) (k : Nat), c.admitted → consistent (State.afterReset c k)) ∧ consistent State.reset

/-- R6: the configuration never changes. -/
def Obligations.ConfigurationNeverChanges : Prop :=
  ∀ s t : State, step s = .next t → t.cfg = s.cfg

/-- R21, R258: no command but WRREG writes the calibration, the hue or the image size, and none but WRSRC writes `SRC`. -/
def Obligations.CoreNeverWritesTheHostsState : Prop :=
  ∀ (i : Instr) (s t : State), exec i s = .next t →
    ((∀ reg v, i ≠ .wrreg reg v) → t.blackPoint = s.blackPoint ∧ t.whitePoint = s.whitePoint ∧ t.hue = s.hue ∧
      t.srcW = s.srcW ∧ t.srcH = s.srcH) ∧
    ((∀ a p, i ≠ .wrsrc a p) → t.src = s.src)

/-- R25: a step sets `FI` only by TEMPLATE or MODULATE, and clears it only by INVALIDATE or reset. -/
def Obligations.FlagChangesOnlyByItsCommands : Prop :=
  ∀ s t : State, step s = .next t →
    (s.fi = false → t.fi = true → ∃ cw rest, s.pending = .command cw :: rest ∧
      (decodeWord cw = .ok .template ∨ decodeWord cw = .ok .modulate)) ∧
    (s.fi = true → t.fi = false → (∃ rest, s.pending = .reset :: rest) ∨
      ∃ cw rest, s.pending = .command cw :: rest ∧ decodeWord cw = .ok .invalidate)

/-- R60, R74: a command that is none of TEMPLATE, MODULATE and CLRBUF leaves every cell of `SIG` as it was, and only
BURSTGEN and MODULATE write the phase tables, only MODULATE the period. -/
def Obligations.OnlyThreeCommandsWriteTheBuffer : Prop :=
  ∀ (i : Instr) (s t : State), exec i s = .next t →
    (i ≠ .template → i ≠ .modulate → i ≠ .clrbuf → ∀ a, readSig t a = readSig s a) ∧
    (i ≠ .burstgen → i ≠ .modulate → t.ccb = s.ccb ∧ t.ccf = s.ccf) ∧
    (i ≠ .modulate → t.ccPeriod = s.ccPeriod)

/-- R34: what the hidden table holds before a command shows in nothing the command leaves but the hidden table itself, so no
command ever uses a stale value of it. -/
def Obligations.HiddenTableIsNeverObserved : Prop :=
  ∀ (i : Instr) (s : State) (x : PhaseTable), ∃ t y,
    exec i s = .next t ∧ exec i { s with ccb := x } = .next { t with ccb := y }

/-- R260 and log entry 10 (DEDUCED): a step of one instance leaves every other instance as it was; what becomes of instance `k`,
and whether its step is refused, are what `step` gives for its state alone, whatever the other instances hold. -/
def Obligations.InstancesDoNotInteract : Prop :=
  (∀ (k j : Nat) (system system' : List State), stepInstance k system = .next system' → j ≠ k →
    system'[j]? = system[j]?) ∧
  (∀ (k : Nat) (system : List State) (s t : State), system[k]? = some s → step s = .next t →
    ∃ system', stepInstance k system = .next system' ∧ system'[k]? = some t) ∧
  (∀ (k : Nat) (system : List State) (s : State) (r : Refusal), system[k]? = some s → step s = .refused r →
    stepInstance k system = .refused r) ∧
  (∀ (k : Nat) (system : List State), system[k]? = none → stepInstance k system = .next system)

/-- R105: `REBUILD` from a state without a failure leaves every cell of the buffer 0 and `FI` clear. -/
def Obligations.RebuildClearsBufferAndFlag : Prop :=
  ∀ s : State, s.cfg.admitted → s.seq = .idle → s.err = false → s.pending = program rebuild →
    ∃ t, Sys2Proof.core.run 2 s = .next t ∧ t.fi = false ∧ t.pending = [] ∧
      ∀ a, a < s.cfg.vres * s.cfg.hres → readSig t a = 0
end

