-- ==== Sys2Proof/Laws/Memory.lean ====
section
/-! SUPPORT. What the memory operations do: a read after a write or a fill, and that each keeps the canonical form. -/

namespace Sys2Proof.Laws

open Machine

variable {w : Nat}

@[simp] theorem find_nil (cell : Nat) : Memory.find ([] : Memory w) cell = none := rfl

theorem find_cons (b : Nat) (v : BitVec w) (m : Memory w) (cell : Nat) :
    Memory.find ((b, v) :: m) cell = if cell = b then some v else Memory.find m cell := rfl

theorem find_append (m m' : Memory w) (cell : Nat) :
    Memory.find (m ++ m') cell = (Memory.find m cell).or (Memory.find m' cell) := by
  induction m with
  | nil => simp
  | cons e m ih =>
    obtain ⟨b, v⟩ := e
    simp only [List.cons_append, find_cons, ih]
    split <;> rfl

theorem find_filter (keep : Nat → Bool) (m : Memory w) (cell : Nat) :
    Memory.find (m.filter fun e => keep e.1) cell = if keep cell then Memory.find m cell else none := by
  induction m with
  | nil => simp
  | cons e m ih =>
    obtain ⟨b, v⟩ := e
    by_cases hb : keep b <;> by_cases hc : cell = b <;> simp_all [find_cons]

theorem find_run (base n : Nat) (f : Nat → BitVec w) (cell : Nat) :
    Memory.find (Memory.run base n f) cell =
      if base ≤ cell ∧ cell < base + n then some (f (cell - base)) else none := by
  induction n with
  | zero => simp [Memory.run]
  | succ n ih =>
    have h : Memory.run base (n + 1) f = Memory.run base n f ++ [(base + n, f n)] := by
      simp [Memory.run, List.range_succ]
    rw [h, find_append, ih, find_cons, find_nil]
    by_cases h1 : base ≤ cell ∧ cell < base + n
    · simp [h1, show cell < base + (n + 1) by omega]
    · by_cases h2 : cell = base + n
      · subst h2
        simp
      · simp [h1, h2, show ¬ (base ≤ cell ∧ cell < base + (n + 1)) by omega]

/-- A read after a write: the value written in its cell, what was there in every other. -/
theorem find_write (m : Memory w) (cell : Nat) (v : BitVec w) (a : Nat) :
    Memory.find (Memory.write m cell v) a = if a = cell then some v else Memory.find m a := by
  induction m with
  | nil => simp [Memory.write, find_cons]
  | cons e m ih =>
    obtain ⟨b, u⟩ := e
    simp only [Memory.write]
    split
    · simp [find_cons]
    · split
      · subst_vars
        simp only [find_cons]
        split <;> rfl
      · simp only [find_cons, ih]
        split <;> split <;> first | rfl | omega

/-- A read after a fill: the value filled in inside the range, what was there outside it. -/
theorem find_fill (m : Memory w) (base n : Nat) (f : Nat → BitVec w) (a : Nat) :
    Memory.find (Memory.fill m base n f) a =
      if base ≤ a ∧ a < base + n then some (f (a - base)) else Memory.find m a := by
  have hlo := find_filter (fun b => decide (b < base)) m a
  have hhi := find_filter (fun b => decide (base + n ≤ b)) m a
  simp only [Memory.fill, find_append, find_run, hlo, hhi, decide_eq_true_eq]
  by_cases h1 : a < base
  · have : ¬ base ≤ a := by omega
    have h2 : ¬ base + n ≤ a := by omega
    simp [h1, this, h2]
  · by_cases h2 : a < base + n
    · simp [h1, h2, show base ≤ a by omega]
    · simp [h1, h2, show base + n ≤ a by omega]

theorem mem_write {m : Memory w} {cell : Nat} {v : BitVec w} {e : Nat × BitVec w}
    (h : e ∈ Memory.write m cell v) : e.1 = cell ∨ e ∈ m := by
  induction m with
  | nil => simp_all [Memory.write]
  | cons d m ih =>
    obtain ⟨b, u⟩ := d
    simp only [Memory.write] at h
    split at h
    · rcases List.mem_cons.1 h with rfl | h
      · exact .inl rfl
      · exact .inr h
    · split at h
      · rcases List.mem_cons.1 h with rfl | h
        · exact .inl rfl
        · exact .inr (List.mem_cons_of_mem _ h)
      · rcases List.mem_cons.1 h with rfl | h
        · exact .inr List.mem_cons_self
        · exact (ih h).imp_right (List.mem_cons_of_mem _)

theorem mem_run {base n : Nat} {f : Nat → BitVec w} {e : Nat × BitVec w}
    (h : e ∈ Memory.run base n f) : base ≤ e.1 ∧ e.1 < base + n := by
  obtain ⟨i, hi, rfl⟩ := List.mem_map.1 h
  have := List.mem_range.1 hi
  exact ⟨Nat.le_add_right _ _, Nat.add_lt_add_left this _⟩

theorem mem_fill {m : Memory w} {base n : Nat} {f : Nat → BitVec w} {e : Nat × BitVec w}
    (h : e ∈ Memory.fill m base n f) : (base ≤ e.1 ∧ e.1 < base + n) ∨ e ∈ m := by
  simp only [Memory.fill, List.mem_append, List.mem_filter] at h
  rcases h with h | h | h
  · exact .inr h.1
  · exact .inl (mem_run h)
  · exact .inr h.1

/-- A single write keeps the canonical form. -/
theorem wf_write {m : Memory w} (h : Memory.wf m) (cell : Nat) (v : BitVec w) :
    Memory.wf (Memory.write m cell v) := by
  induction m with
  | nil => simp [Memory.write, Memory.wf]
  | cons d m ih =>
    obtain ⟨b, u⟩ := d
    have hd := List.pairwise_cons.1 h
    simp only [Memory.write]
    split
    · rename_i hlt
      refine List.pairwise_cons.2 ⟨fun e he => ?_, h⟩
      rcases List.mem_cons.1 he with rfl | he
      · exact hlt
      · exact hlt.trans (hd.1 e he)
    · split
      · subst_vars
        exact List.pairwise_cons.2 ⟨hd.1, hd.2⟩
      · refine List.pairwise_cons.2 ⟨fun e he => ?_, ih hd.2⟩
        rcases mem_write he with h' | he
        · simp only [h']
          omega
        · exact hd.1 e he

theorem wf_run (base n : Nat) (f : Nat → BitVec w) : Memory.wf (Memory.run base n f) := by
  refine List.pairwise_map.2 (List.Pairwise.imp ?_ List.pairwise_lt_range)
  intro i j hij
  exact Nat.add_lt_add_left hij _

/-- A fill keeps the canonical form. -/
theorem wf_fill {m : Memory w} (h : Memory.wf m) (base n : Nat) (f : Nat → BitVec w) :
    Memory.wf (Memory.fill m base n f) := by
  have keys {p : Nat × BitVec w → Bool} {e} (he : e ∈ m.filter p) : p e := (List.mem_filter.1 he).2
  refine List.pairwise_append.2 ⟨h.filter _, List.pairwise_append.2 ⟨wf_run .., h.filter _, ?_⟩, ?_⟩
  · intro a ha b hb
    have := mem_run ha
    have := of_decide_eq_true (keys hb)
    omega
  · intro a ha b hb
    have := of_decide_eq_true (keys ha)
    rcases List.mem_append.1 hb with hb | hb
    · have := mem_run hb
      omega
    · have := of_decide_eq_true (keys hb)
      omega

theorem find_eq_none_of_lt {m : Memory w} {a : Nat} (h : ∀ e ∈ m, a < e.1) : Memory.find m a = none := by
  induction m with
  | nil => rfl
  | cons d m ih =>
    obtain ⟨b, u⟩ := d
    have := h (b, u) List.mem_cons_self
    rw [find_cons, if_neg (by simp only at this; omega), ih fun e he => h e (List.mem_cons_of_mem _ he)]

/-- Memories in canonical form that read the same in every cell are the same data. -/
theorem memory_ext {m m' : Memory w} (h : Memory.wf m) (h' : Memory.wf m')
    (he : ∀ a, Memory.find m a = Memory.find m' a) : m = m' := by
  induction m generalizing m' with
  | nil =>
    cases m' with
    | nil => rfl
    | cons d' m' =>
      obtain ⟨b', u'⟩ := d'
      simpa [find_cons] using he b'
  | cons d m ih =>
    obtain ⟨b, u⟩ := d
    cases m' with
    | nil => simpa [find_cons] using he b
    | cons d' m' =>
      obtain ⟨b', u'⟩ := d'
      have hd := List.pairwise_cons.1 h
      have hd' := List.pairwise_cons.1 h'
      have hbb : b = b' := by
        rcases Nat.lt_trichotomy b b' with hlt | rfl | hlt
        · have := he b
          rw [find_cons, if_pos rfl, find_cons, if_neg (by omega),
            find_eq_none_of_lt fun e hm => hlt.trans (hd'.1 e hm)] at this
          cases this
        · rfl
        · have := he b'
          rw [find_cons, if_neg (by omega), find_cons, if_pos rfl,
            find_eq_none_of_lt fun e hm => hlt.trans (hd.1 e hm)] at this
          cases this
      subst hbb
      have huu : u = u' := by simpa [find_cons] using he b
      subst huu
      congr 1
      refine ih hd.2 hd'.2 fun a => ?_
      by_cases hab : a = b
      · subst hab
        rw [find_eq_none_of_lt fun e hm => hd.1 e hm, find_eq_none_of_lt fun e hm => hd'.1 e hm]
      · simpa [find_cons, hab] using he a

/-- A property that each pass of a counted loop keeps holds after the loop (R11). -/
theorem loopFrom_induction {σ : Type} {body : Nat → σ → σ} {P : Nat → σ → Prop} {n lo : Nat} {s : σ} (h0 : P lo s)
    (hs : ∀ i s, lo ≤ i → i < lo + n → P i s → P (i + 1) (body i s)) : P (lo + n) (loopFrom body n lo s) := by
  induction n generalizing lo s with
  | zero => exact h0
  | succ n ih =>
    rw [show lo + (n + 1) = lo + 1 + n by omega]
    exact ih (hs lo s (Nat.le_refl _) (by omega) h0) fun i s h1 h2 => hs i s (by omega) (by omega)

/-- The rule for a loop `for i in lo .. hi - 1` (R11): what holds of `lo` and the start holds of `hi` and the result. -/
theorem loop_induction {σ : Type} {body : Nat → σ → σ} {P : Nat → σ → Prop} {lo hi : Nat} {s : σ} (hle : lo ≤ hi)
    (h0 : P lo s) (hs : ∀ i s, lo ≤ i → i < hi → P i s → P (i + 1) (body i s)) : P hi (loop lo hi body s) := by
  have := loopFrom_induction (n := hi - lo) h0 fun i s h1 h2 => hs i s h1 (by omega)
  rwa [show lo + (hi - lo) = hi by omega] at this

/-- A property that every pass keeps, whatever its index, holds after the loop. -/
theorem loop_keeps {σ : Type} {body : Nat → σ → σ} {P : σ → Prop} (lo hi : Nat) {s : σ} (h0 : P s)
    (hs : ∀ i s, lo ≤ i → i < hi → P s → P (body i s)) : P (loop lo hi body s) :=
  loopFrom_induction (P := fun _ => P) (n := hi - lo) h0 fun i s h1 h2 => hs i s h1 (by omega)

/-- One pass of the fill is the loop of single writes that R11 describes. -/
theorem fill_eq_writes {m : Memory w} (h : Memory.wf m) (base n : Nat) (f : Nat → BitVec w) :
    Memory.fill m base n f = loop 0 n (fun i m => Memory.write m (base + i) (f i)) m := by
  refine memory_ext (wf_fill h ..) (loop_keeps _ _ h fun i m _ _ hm => wf_write hm ..) fun a => ?_
  rw [find_fill]
  refine loop_induction (P := fun i m' => (if base ≤ a ∧ a < base + i then some (f (a - base)) else Memory.find m a)
    = Memory.find m' a) (Nat.zero_le n) (by simp) fun i m' _ _ ih => ?_
  rw [find_write, ← ih]
  by_cases h1 : a = base + i
  · subst h1
    simp
  · by_cases h2 : base ≤ a ∧ a < base + i
    · simp [h1, h2, show a < base + (i + 1) by omega]
    · simp [h1, h2, show ¬ (base ≤ a ∧ a < base + (i + 1)) by omega]

end Sys2Proof.Laws
end

