-- ==== Sys2Proof/Laws/State.lean ====
section
/-! SUPPORT. One lemma per field of `State` for each operation that updates it, so that no proof unfolds an update. -/

namespace Sys2Proof.Laws

open Machine

@[simp] theorem start_cfg (op : Operation) (s : State) : (start op s).cfg = s.cfg := rfl
@[simp] theorem start_sig (op : Operation) (s : State) : (start op s).sig = s.sig := rfl
@[simp] theorem start_src (op : Operation) (s : State) : (start op s).src = s.src := rfl
@[simp] theorem start_blackPoint (op : Operation) (s : State) : (start op s).blackPoint = s.blackPoint := rfl
@[simp] theorem start_whitePoint (op : Operation) (s : State) : (start op s).whitePoint = s.whitePoint := rfl
@[simp] theorem start_hue (op : Operation) (s : State) : (start op s).hue = s.hue := rfl
@[simp] theorem start_srcW (op : Operation) (s : State) : (start op s).srcW = s.srcW := rfl
@[simp] theorem start_srcH (op : Operation) (s : State) : (start op s).srcH = s.srcH := rfl
@[simp] theorem start_fi (op : Operation) (s : State) : (start op s).fi = s.fi := rfl
@[simp] theorem start_ccf (op : Operation) (s : State) : (start op s).ccf = s.ccf := rfl
@[simp] theorem start_ccPeriod (op : Operation) (s : State) : (start op s).ccPeriod = s.ccPeriod := rfl
@[simp] theorem start_err (op : Operation) (s : State) : (start op s).err = s.err := rfl
@[simp] theorem start_errcode (op : Operation) (s : State) : (start op s).errcode = s.errcode := rfl
@[simp] theorem start_ccb (op : Operation) (s : State) : (start op s).ccb = s.ccb := rfl
@[simp] theorem start_seq (op : Operation) (s : State) : (start op s).seq = .run op := rfl
@[simp] theorem start_resp (op : Operation) (s : State) : (start op s).resp = s.resp := rfl
@[simp] theorem start_pending (op : Operation) (s : State) : (start op s).pending = s.pending := rfl
@[simp] theorem start_responses (op : Operation) (s : State) : (start op s).responses = s.responses := rfl
@[simp] theorem start_resetCount (op : Operation) (s : State) : (start op s).resetCount = s.resetCount := rfl

@[simp] theorem complete_cfg (v : Word) (s : State) : (complete v s).cfg = s.cfg := rfl
@[simp] theorem complete_sig (v : Word) (s : State) : (complete v s).sig = s.sig := rfl
@[simp] theorem complete_src (v : Word) (s : State) : (complete v s).src = s.src := rfl
@[simp] theorem complete_blackPoint (v : Word) (s : State) : (complete v s).blackPoint = s.blackPoint := rfl
@[simp] theorem complete_whitePoint (v : Word) (s : State) : (complete v s).whitePoint = s.whitePoint := rfl
@[simp] theorem complete_hue (v : Word) (s : State) : (complete v s).hue = s.hue := rfl
@[simp] theorem complete_srcW (v : Word) (s : State) : (complete v s).srcW = s.srcW := rfl
@[simp] theorem complete_srcH (v : Word) (s : State) : (complete v s).srcH = s.srcH := rfl
@[simp] theorem complete_fi (v : Word) (s : State) : (complete v s).fi = s.fi := rfl
@[simp] theorem complete_ccf (v : Word) (s : State) : (complete v s).ccf = s.ccf := rfl
@[simp] theorem complete_ccPeriod (v : Word) (s : State) : (complete v s).ccPeriod = s.ccPeriod := rfl
@[simp] theorem complete_err (v : Word) (s : State) : (complete v s).err = s.err := rfl
@[simp] theorem complete_errcode (v : Word) (s : State) : (complete v s).errcode = s.errcode := rfl
@[simp] theorem complete_ccb (v : Word) (s : State) : (complete v s).ccb = s.ccb := rfl
@[simp] theorem complete_seq (v : Word) (s : State) : (complete v s).seq = .idle := rfl
@[simp] theorem complete_resp (v : Word) (s : State) : (complete v s).resp = v := rfl
@[simp] theorem complete_pending (v : Word) (s : State) : (complete v s).pending = s.pending := rfl
@[simp] theorem complete_responses (v : Word) (s : State) : (complete v s).responses = s.responses := rfl
@[simp] theorem complete_resetCount (v : Word) (s : State) : (complete v s).resetCount = s.resetCount := rfl

@[simp] theorem raise_cfg (e : ExceptionCause) (s : State) : (raise e s).cfg = s.cfg := rfl
@[simp] theorem raise_sig (e : ExceptionCause) (s : State) : (raise e s).sig = s.sig := rfl
@[simp] theorem raise_src (e : ExceptionCause) (s : State) : (raise e s).src = s.src := rfl
@[simp] theorem raise_blackPoint (e : ExceptionCause) (s : State) : (raise e s).blackPoint = s.blackPoint := rfl
@[simp] theorem raise_whitePoint (e : ExceptionCause) (s : State) : (raise e s).whitePoint = s.whitePoint := rfl
@[simp] theorem raise_hue (e : ExceptionCause) (s : State) : (raise e s).hue = s.hue := rfl
@[simp] theorem raise_srcW (e : ExceptionCause) (s : State) : (raise e s).srcW = s.srcW := rfl
@[simp] theorem raise_srcH (e : ExceptionCause) (s : State) : (raise e s).srcH = s.srcH := rfl
@[simp] theorem raise_fi (e : ExceptionCause) (s : State) : (raise e s).fi = s.fi := rfl
@[simp] theorem raise_ccf (e : ExceptionCause) (s : State) : (raise e s).ccf = s.ccf := rfl
@[simp] theorem raise_ccPeriod (e : ExceptionCause) (s : State) : (raise e s).ccPeriod = s.ccPeriod := rfl
@[simp] theorem raise_err (e : ExceptionCause) (s : State) : (raise e s).err = true := rfl
@[simp] theorem raise_errcode (e : ExceptionCause) (s : State) : (raise e s).errcode = errcodeAfterRaise e s.err s.errcode := rfl
@[simp] theorem raise_ccb (e : ExceptionCause) (s : State) : (raise e s).ccb = s.ccb := rfl
@[simp] theorem raise_seq (e : ExceptionCause) (s : State) : (raise e s).seq = .idle := rfl
@[simp] theorem raise_resp (e : ExceptionCause) (s : State) : (raise e s).resp = 0 := rfl
@[simp] theorem raise_pending (e : ExceptionCause) (s : State) : (raise e s).pending = s.pending := rfl
@[simp] theorem raise_responses (e : ExceptionCause) (s : State) : (raise e s).responses = s.responses := rfl
@[simp] theorem raise_resetCount (e : ExceptionCause) (s : State) : (raise e s).resetCount = s.resetCount := rfl

@[simp] theorem refuseCommand_cfg (s : State) : (refuseCommand s).cfg = s.cfg := rfl
@[simp] theorem refuseCommand_sig (s : State) : (refuseCommand s).sig = s.sig := rfl
@[simp] theorem refuseCommand_src (s : State) : (refuseCommand s).src = s.src := rfl
@[simp] theorem refuseCommand_blackPoint (s : State) : (refuseCommand s).blackPoint = s.blackPoint := rfl
@[simp] theorem refuseCommand_whitePoint (s : State) : (refuseCommand s).whitePoint = s.whitePoint := rfl
@[simp] theorem refuseCommand_hue (s : State) : (refuseCommand s).hue = s.hue := rfl
@[simp] theorem refuseCommand_srcW (s : State) : (refuseCommand s).srcW = s.srcW := rfl
@[simp] theorem refuseCommand_srcH (s : State) : (refuseCommand s).srcH = s.srcH := rfl
@[simp] theorem refuseCommand_fi (s : State) : (refuseCommand s).fi = s.fi := rfl
@[simp] theorem refuseCommand_ccf (s : State) : (refuseCommand s).ccf = s.ccf := rfl
@[simp] theorem refuseCommand_ccPeriod (s : State) : (refuseCommand s).ccPeriod = s.ccPeriod := rfl
@[simp] theorem refuseCommand_err (s : State) : (refuseCommand s).err = s.err := rfl
@[simp] theorem refuseCommand_errcode (s : State) : (refuseCommand s).errcode = s.errcode := rfl
@[simp] theorem refuseCommand_ccb (s : State) : (refuseCommand s).ccb = s.ccb := rfl
@[simp] theorem refuseCommand_seq (s : State) : (refuseCommand s).seq = .idle := rfl
@[simp] theorem refuseCommand_resp (s : State) : (refuseCommand s).resp = 0 := rfl
@[simp] theorem refuseCommand_pending (s : State) : (refuseCommand s).pending = s.pending := rfl
@[simp] theorem refuseCommand_responses (s : State) : (refuseCommand s).responses = s.responses := rfl
@[simp] theorem refuseCommand_resetCount (s : State) : (refuseCommand s).resetCount = s.resetCount := rfl

@[simp] theorem returnResponse_cfg (s : State) : (returnResponse s).cfg = s.cfg := rfl
@[simp] theorem returnResponse_sig (s : State) : (returnResponse s).sig = s.sig := rfl
@[simp] theorem returnResponse_src (s : State) : (returnResponse s).src = s.src := rfl
@[simp] theorem returnResponse_blackPoint (s : State) : (returnResponse s).blackPoint = s.blackPoint := rfl
@[simp] theorem returnResponse_whitePoint (s : State) : (returnResponse s).whitePoint = s.whitePoint := rfl
@[simp] theorem returnResponse_hue (s : State) : (returnResponse s).hue = s.hue := rfl
@[simp] theorem returnResponse_srcW (s : State) : (returnResponse s).srcW = s.srcW := rfl
@[simp] theorem returnResponse_srcH (s : State) : (returnResponse s).srcH = s.srcH := rfl
@[simp] theorem returnResponse_fi (s : State) : (returnResponse s).fi = s.fi := rfl
@[simp] theorem returnResponse_ccf (s : State) : (returnResponse s).ccf = s.ccf := rfl
@[simp] theorem returnResponse_ccPeriod (s : State) : (returnResponse s).ccPeriod = s.ccPeriod := rfl
@[simp] theorem returnResponse_err (s : State) : (returnResponse s).err = s.err := rfl
@[simp] theorem returnResponse_errcode (s : State) : (returnResponse s).errcode = s.errcode := rfl
@[simp] theorem returnResponse_ccb (s : State) : (returnResponse s).ccb = s.ccb := rfl
@[simp] theorem returnResponse_seq (s : State) : (returnResponse s).seq = s.seq := rfl
@[simp] theorem returnResponse_resp (s : State) : (returnResponse s).resp = s.resp := rfl
@[simp] theorem returnResponse_pending (s : State) : (returnResponse s).pending = s.pending := rfl
@[simp] theorem returnResponse_responses (s : State) : (returnResponse s).responses = s.responses ++ [s.resp] := rfl
@[simp] theorem returnResponse_resetCount (s : State) : (returnResponse s).resetCount = s.resetCount := rfl

@[simp] theorem presentWord_cfg (cw : Word) (s : State) : (presentWord cw s).cfg = s.cfg := rfl
@[simp] theorem presentWord_sig (cw : Word) (s : State) : (presentWord cw s).sig = s.sig := rfl
@[simp] theorem presentWord_src (cw : Word) (s : State) : (presentWord cw s).src = s.src := rfl
@[simp] theorem presentWord_blackPoint (cw : Word) (s : State) : (presentWord cw s).blackPoint = s.blackPoint := rfl
@[simp] theorem presentWord_whitePoint (cw : Word) (s : State) : (presentWord cw s).whitePoint = s.whitePoint := rfl
@[simp] theorem presentWord_hue (cw : Word) (s : State) : (presentWord cw s).hue = s.hue := rfl
@[simp] theorem presentWord_srcW (cw : Word) (s : State) : (presentWord cw s).srcW = s.srcW := rfl
@[simp] theorem presentWord_srcH (cw : Word) (s : State) : (presentWord cw s).srcH = s.srcH := rfl
@[simp] theorem presentWord_fi (cw : Word) (s : State) : (presentWord cw s).fi = s.fi := rfl
@[simp] theorem presentWord_ccf (cw : Word) (s : State) : (presentWord cw s).ccf = s.ccf := rfl
@[simp] theorem presentWord_ccPeriod (cw : Word) (s : State) : (presentWord cw s).ccPeriod = s.ccPeriod := rfl
@[simp] theorem presentWord_err (cw : Word) (s : State) : (presentWord cw s).err = s.err := rfl
@[simp] theorem presentWord_errcode (cw : Word) (s : State) : (presentWord cw s).errcode = s.errcode := rfl
@[simp] theorem presentWord_ccb (cw : Word) (s : State) : (presentWord cw s).ccb = s.ccb := rfl
@[simp] theorem presentWord_seq (cw : Word) (s : State) : (presentWord cw s).seq = .idle := rfl
@[simp] theorem presentWord_resp (cw : Word) (s : State) : (presentWord cw s).resp = s.resp := rfl
@[simp] theorem presentWord_pending (cw : Word) (s : State) : (presentWord cw s).pending = .command cw :: s.pending := rfl
@[simp] theorem presentWord_responses (cw : Word) (s : State) : (presentWord cw s).responses = s.responses := rfl
@[simp] theorem presentWord_resetCount (cw : Word) (s : State) : (presentWord cw s).resetCount = s.resetCount := rfl

@[simp] theorem withProgram_cfg (actions : List HostAction) (s : State) : (withProgram actions s).cfg = s.cfg := rfl
@[simp] theorem withProgram_sig (actions : List HostAction) (s : State) : (withProgram actions s).sig = s.sig := rfl
@[simp] theorem withProgram_src (actions : List HostAction) (s : State) : (withProgram actions s).src = s.src := rfl
@[simp] theorem withProgram_blackPoint (actions : List HostAction) (s : State) : (withProgram actions s).blackPoint = s.blackPoint := rfl
@[simp] theorem withProgram_whitePoint (actions : List HostAction) (s : State) : (withProgram actions s).whitePoint = s.whitePoint := rfl
@[simp] theorem withProgram_hue (actions : List HostAction) (s : State) : (withProgram actions s).hue = s.hue := rfl
@[simp] theorem withProgram_srcW (actions : List HostAction) (s : State) : (withProgram actions s).srcW = s.srcW := rfl
@[simp] theorem withProgram_srcH (actions : List HostAction) (s : State) : (withProgram actions s).srcH = s.srcH := rfl
@[simp] theorem withProgram_fi (actions : List HostAction) (s : State) : (withProgram actions s).fi = s.fi := rfl
@[simp] theorem withProgram_ccf (actions : List HostAction) (s : State) : (withProgram actions s).ccf = s.ccf := rfl
@[simp] theorem withProgram_ccPeriod (actions : List HostAction) (s : State) : (withProgram actions s).ccPeriod = s.ccPeriod := rfl
@[simp] theorem withProgram_err (actions : List HostAction) (s : State) : (withProgram actions s).err = s.err := rfl
@[simp] theorem withProgram_errcode (actions : List HostAction) (s : State) : (withProgram actions s).errcode = s.errcode := rfl
@[simp] theorem withProgram_ccb (actions : List HostAction) (s : State) : (withProgram actions s).ccb = s.ccb := rfl
@[simp] theorem withProgram_seq (actions : List HostAction) (s : State) : (withProgram actions s).seq = s.seq := rfl
@[simp] theorem withProgram_resp (actions : List HostAction) (s : State) : (withProgram actions s).resp = s.resp := rfl
@[simp] theorem withProgram_pending (actions : List HostAction) (s : State) : (withProgram actions s).pending = actions := rfl
@[simp] theorem withProgram_responses (actions : List HostAction) (s : State) : (withProgram actions s).responses = s.responses := rfl
@[simp] theorem withProgram_resetCount (actions : List HostAction) (s : State) : (withProgram actions s).resetCount = s.resetCount := rfl

@[simp] theorem applyReset_cfg (rest : List HostAction) (s : State) : (applyReset rest s).cfg = s.cfg := rfl
@[simp] theorem applyReset_sig (rest : List HostAction) (s : State) : (applyReset rest s).sig = [] := rfl
@[simp] theorem applyReset_src (rest : List HostAction) (s : State) : (applyReset rest s).src = [] := rfl
@[simp] theorem applyReset_blackPoint (rest : List HostAction) (s : State) : (applyReset rest s).blackPoint = s.cfg.resetBlackPoint := rfl
@[simp] theorem applyReset_whitePoint (rest : List HostAction) (s : State) : (applyReset rest s).whitePoint = s.cfg.resetWhitePoint := rfl
@[simp] theorem applyReset_hue (rest : List HostAction) (s : State) : (applyReset rest s).hue = 0 := rfl
@[simp] theorem applyReset_srcW (rest : List HostAction) (s : State) : (applyReset rest s).srcW = 0 := rfl
@[simp] theorem applyReset_srcH (rest : List HostAction) (s : State) : (applyReset rest s).srcH = 0 := rfl
@[simp] theorem applyReset_fi (rest : List HostAction) (s : State) : (applyReset rest s).fi = false := rfl
@[simp] theorem applyReset_ccf (rest : List HostAction) (s : State) : (applyReset rest s).ccf = ccfAfterReset (s.resetCount + 1) := rfl
@[simp] theorem applyReset_ccPeriod (rest : List HostAction) (s : State) : (applyReset rest s).ccPeriod = ccPeriodAfterReset (s.resetCount + 1) := rfl
@[simp] theorem applyReset_err (rest : List HostAction) (s : State) : (applyReset rest s).err = false := rfl
@[simp] theorem applyReset_errcode (rest : List HostAction) (s : State) : (applyReset rest s).errcode = 0 := rfl
@[simp] theorem applyReset_ccb (rest : List HostAction) (s : State) : (applyReset rest s).ccb = ccbAfterReset (s.resetCount + 1) := rfl
@[simp] theorem applyReset_seq (rest : List HostAction) (s : State) : (applyReset rest s).seq = .idle := rfl
@[simp] theorem applyReset_resp (rest : List HostAction) (s : State) : (applyReset rest s).resp = 0 := rfl
@[simp] theorem applyReset_pending (rest : List HostAction) (s : State) : (applyReset rest s).pending = rest := rfl
@[simp] theorem applyReset_responses (rest : List HostAction) (s : State) : (applyReset rest s).responses = s.responses := rfl
@[simp] theorem applyReset_resetCount (rest : List HostAction) (s : State) : (applyReset rest s).resetCount = s.resetCount + 1 := rfl

@[simp] theorem generateBurst_cfg (s : State) : (generateBurst s).cfg = s.cfg := rfl
@[simp] theorem generateBurst_sig (s : State) : (generateBurst s).sig = s.sig := rfl
@[simp] theorem generateBurst_src (s : State) : (generateBurst s).src = s.src := rfl
@[simp] theorem generateBurst_blackPoint (s : State) : (generateBurst s).blackPoint = s.blackPoint := rfl
@[simp] theorem generateBurst_whitePoint (s : State) : (generateBurst s).whitePoint = s.whitePoint := rfl
@[simp] theorem generateBurst_hue (s : State) : (generateBurst s).hue = s.hue := rfl
@[simp] theorem generateBurst_srcW (s : State) : (generateBurst s).srcW = s.srcW := rfl
@[simp] theorem generateBurst_srcH (s : State) : (generateBurst s).srcH = s.srcH := rfl
@[simp] theorem generateBurst_fi (s : State) : (generateBurst s).fi = s.fi := rfl
@[simp] theorem generateBurst_ccf (s : State) : (generateBurst s).ccf = tableOf (burstSine s.cfg (signed16 s.hue)) := rfl
@[simp] theorem generateBurst_ccPeriod (s : State) : (generateBurst s).ccPeriod = s.ccPeriod := rfl
@[simp] theorem generateBurst_err (s : State) : (generateBurst s).err = s.err := rfl
@[simp] theorem generateBurst_errcode (s : State) : (generateBurst s).errcode = s.errcode := rfl
@[simp] theorem generateBurst_ccb (s : State) : (generateBurst s).ccb = tableOf (burstSine s.cfg (signed16 s.hue)) := rfl
@[simp] theorem generateBurst_seq (s : State) : (generateBurst s).seq = s.seq := rfl
@[simp] theorem generateBurst_resp (s : State) : (generateBurst s).resp = s.resp := rfl
@[simp] theorem generateBurst_pending (s : State) : (generateBurst s).pending = s.pending := rfl
@[simp] theorem generateBurst_responses (s : State) : (generateBurst s).responses = s.responses := rfl
@[simp] theorem generateBurst_resetCount (s : State) : (generateBurst s).resetCount = s.resetCount := rfl

@[simp] theorem modulateLines_cfg (s : State) : (modulateLines s).cfg = s.cfg := rfl
@[simp] theorem modulateLines_sig (s : State) : (modulateLines s).sig = loop 0 s.cfg.lines (lineSignal s) s.sig := rfl
@[simp] theorem modulateLines_src (s : State) : (modulateLines s).src = s.src := rfl
@[simp] theorem modulateLines_blackPoint (s : State) : (modulateLines s).blackPoint = s.blackPoint := rfl
@[simp] theorem modulateLines_whitePoint (s : State) : (modulateLines s).whitePoint = s.whitePoint := rfl
@[simp] theorem modulateLines_hue (s : State) : (modulateLines s).hue = s.hue := rfl
@[simp] theorem modulateLines_srcW (s : State) : (modulateLines s).srcW = s.srcW := rfl
@[simp] theorem modulateLines_srcH (s : State) : (modulateLines s).srcH = s.srcH := rfl
@[simp] theorem modulateLines_fi (s : State) : (modulateLines s).fi = s.fi := rfl
@[simp] theorem modulateLines_ccf (s : State) : (modulateLines s).ccf = loop 0 s.cfg.lines (lineCache s) s.ccf := rfl
@[simp] theorem modulateLines_ccPeriod (s : State) : (modulateLines s).ccPeriod = 6 := rfl
@[simp] theorem modulateLines_err (s : State) : (modulateLines s).err = s.err := rfl
@[simp] theorem modulateLines_errcode (s : State) : (modulateLines s).errcode = s.errcode := rfl
@[simp] theorem modulateLines_ccb (s : State) : (modulateLines s).ccb = s.ccb := rfl
@[simp] theorem modulateLines_seq (s : State) : (modulateLines s).seq = s.seq := rfl
@[simp] theorem modulateLines_resp (s : State) : (modulateLines s).resp = s.resp := rfl
@[simp] theorem modulateLines_pending (s : State) : (modulateLines s).pending = s.pending := rfl
@[simp] theorem modulateLines_responses (s : State) : (modulateLines s).responses = s.responses := rfl
@[simp] theorem modulateLines_resetCount (s : State) : (modulateLines s).resetCount = s.resetCount := rfl

@[simp] theorem ensureTemplate_cfg (s : State) : (ensureTemplate s).cfg = s.cfg := by
  unfold ensureTemplate
  split <;> simp_all
@[simp] theorem ensureTemplate_sig (s : State) : (ensureTemplate s).sig = if s.fi then s.sig else buildTemplate s.cfg s.sig := by
  unfold ensureTemplate
  split <;> simp_all
/-- With `FI = 1` the guarded block does nothing (R121). -/
theorem ensureTemplate_of_fi {s : State} (h : s.fi = true) : ensureTemplate s = s := by
  simp [ensureTemplate, h]

/-- With `FI = 0` the guarded block writes the template and sets `FI` (R121). -/
theorem ensureTemplate_of_not_fi {s : State} (h : s.fi = false) :
    ensureTemplate s = { s with sig := buildTemplate s.cfg s.sig, fi := true } := by
  simp [ensureTemplate, h]

@[simp] theorem ensureTemplate_src (s : State) : (ensureTemplate s).src = s.src := by
  unfold ensureTemplate
  split <;> simp_all
@[simp] theorem ensureTemplate_blackPoint (s : State) : (ensureTemplate s).blackPoint = s.blackPoint := by
  unfold ensureTemplate
  split <;> simp_all
@[simp] theorem ensureTemplate_whitePoint (s : State) : (ensureTemplate s).whitePoint = s.whitePoint := by
  unfold ensureTemplate
  split <;> simp_all
@[simp] theorem ensureTemplate_hue (s : State) : (ensureTemplate s).hue = s.hue := by
  unfold ensureTemplate
  split <;> simp_all
@[simp] theorem ensureTemplate_srcW (s : State) : (ensureTemplate s).srcW = s.srcW := by
  unfold ensureTemplate
  split <;> simp_all
@[simp] theorem ensureTemplate_srcH (s : State) : (ensureTemplate s).srcH = s.srcH := by
  unfold ensureTemplate
  split <;> simp_all
@[simp] theorem ensureTemplate_fi (s : State) : (ensureTemplate s).fi = true := by
  unfold ensureTemplate
  split <;> simp_all
@[simp] theorem ensureTemplate_ccf (s : State) : (ensureTemplate s).ccf = s.ccf := by
  unfold ensureTemplate
  split <;> simp_all
@[simp] theorem ensureTemplate_ccPeriod (s : State) : (ensureTemplate s).ccPeriod = s.ccPeriod := by
  unfold ensureTemplate
  split <;> simp_all
@[simp] theorem ensureTemplate_err (s : State) : (ensureTemplate s).err = s.err := by
  unfold ensureTemplate
  split <;> simp_all
@[simp] theorem ensureTemplate_errcode (s : State) : (ensureTemplate s).errcode = s.errcode := by
  unfold ensureTemplate
  split <;> simp_all
@[simp] theorem ensureTemplate_ccb (s : State) : (ensureTemplate s).ccb = s.ccb := by
  unfold ensureTemplate
  split <;> simp_all
@[simp] theorem ensureTemplate_seq (s : State) : (ensureTemplate s).seq = s.seq := by
  unfold ensureTemplate
  split <;> simp_all
@[simp] theorem ensureTemplate_resp (s : State) : (ensureTemplate s).resp = s.resp := by
  unfold ensureTemplate
  split <;> simp_all
@[simp] theorem ensureTemplate_pending (s : State) : (ensureTemplate s).pending = s.pending := by
  unfold ensureTemplate
  split <;> simp_all
@[simp] theorem ensureTemplate_responses (s : State) : (ensureTemplate s).responses = s.responses := by
  unfold ensureTemplate
  split <;> simp_all
@[simp] theorem ensureTemplate_resetCount (s : State) : (ensureTemplate s).resetCount = s.resetCount := by
  unfold ensureTemplate
  split <;> simp_all

@[simp] theorem writeRegister_cfg (reg : BitVec 5) (val : BitVec 16) (s : State) : (writeRegister reg val s).cfg = s.cfg := by
  unfold writeRegister
  split <;> rfl
@[simp] theorem writeRegister_sig (reg : BitVec 5) (val : BitVec 16) (s : State) : (writeRegister reg val s).sig = s.sig := by
  unfold writeRegister
  split <;> rfl
@[simp] theorem writeRegister_src (reg : BitVec 5) (val : BitVec 16) (s : State) : (writeRegister reg val s).src = s.src := by
  unfold writeRegister
  split <;> rfl
@[simp] theorem writeRegister_fi (reg : BitVec 5) (val : BitVec 16) (s : State) : (writeRegister reg val s).fi = s.fi := by
  unfold writeRegister
  split <;> rfl
@[simp] theorem writeRegister_ccf (reg : BitVec 5) (val : BitVec 16) (s : State) : (writeRegister reg val s).ccf = s.ccf := by
  unfold writeRegister
  split <;> rfl
@[simp] theorem writeRegister_ccPeriod (reg : BitVec 5) (val : BitVec 16) (s : State) : (writeRegister reg val s).ccPeriod = s.ccPeriod := by
  unfold writeRegister
  split <;> rfl
@[simp] theorem writeRegister_err (reg : BitVec 5) (val : BitVec 16) (s : State) : (writeRegister reg val s).err = s.err := by
  unfold writeRegister
  split <;> rfl
@[simp] theorem writeRegister_errcode (reg : BitVec 5) (val : BitVec 16) (s : State) : (writeRegister reg val s).errcode = s.errcode := by
  unfold writeRegister
  split <;> rfl
@[simp] theorem writeRegister_ccb (reg : BitVec 5) (val : BitVec 16) (s : State) : (writeRegister reg val s).ccb = s.ccb := by
  unfold writeRegister
  split <;> rfl
@[simp] theorem writeRegister_seq (reg : BitVec 5) (val : BitVec 16) (s : State) : (writeRegister reg val s).seq = s.seq := by
  unfold writeRegister
  split <;> rfl
@[simp] theorem writeRegister_resp (reg : BitVec 5) (val : BitVec 16) (s : State) : (writeRegister reg val s).resp = s.resp := by
  unfold writeRegister
  split <;> rfl
@[simp] theorem writeRegister_pending (reg : BitVec 5) (val : BitVec 16) (s : State) : (writeRegister reg val s).pending = s.pending := by
  unfold writeRegister
  split <;> rfl
@[simp] theorem writeRegister_responses (reg : BitVec 5) (val : BitVec 16) (s : State) : (writeRegister reg val s).responses = s.responses := by
  unfold writeRegister
  split <;> rfl
@[simp] theorem writeRegister_resetCount (reg : BitVec 5) (val : BitVec 16) (s : State) : (writeRegister reg val s).resetCount = s.resetCount := by
  unfold writeRegister
  split <;> rfl

@[simp] theorem writeRegister_blackPoint (reg : BitVec 5) (val : BitVec 16) (s : State) :
    (writeRegister reg val s).blackPoint = if reg.toNat = 1 then val else s.blackPoint := by
  unfold writeRegister
  split <;> simp_all
@[simp] theorem writeRegister_whitePoint (reg : BitVec 5) (val : BitVec 16) (s : State) :
    (writeRegister reg val s).whitePoint = if reg.toNat = 2 then val else s.whitePoint := by
  unfold writeRegister
  split <;> simp_all
@[simp] theorem writeRegister_hue (reg : BitVec 5) (val : BitVec 16) (s : State) :
    (writeRegister reg val s).hue = if reg.toNat = 3 then val else s.hue := by
  unfold writeRegister
  split <;> simp_all
@[simp] theorem writeRegister_srcW (reg : BitVec 5) (val : BitVec 16) (s : State) :
    (writeRegister reg val s).srcW = if reg.toNat = 4 then val else s.srcW := by
  unfold writeRegister
  split <;> simp_all
@[simp] theorem writeRegister_srcH (reg : BitVec 5) (val : BitVec 16) (s : State) :
    (writeRegister reg val s).srcH = if reg.toNat = 5 then val else s.srcH := by
  unfold writeRegister
  split <;> simp_all

end Sys2Proof.Laws
end

