-- ==== Sys2Proof/Laws/Ops.lean ====
section
/-! SUPPORT. What each shared operation can do, said once: accepting a command, the phase tables, the lines of the
SignalBuffer, the narrowing of values, and the two memories seen through `readSig` and `readSrc`. -/

namespace Sys2Proof.Laws

open Machine

section Accepting

variable {op : Operation} {legal : Bool} {s t : State} {rule : State → State}

theorem accept_illegal (h : legal = false) : accept op legal s rule = .next (raise .illegalCommand s) := by
  simp [accept, h]

theorem accept_refused (h : legal = true) (he : s.err = true) (hw : worksInError op = false) :
    accept op legal s rule = .next (refuseCommand s) := by
  simp [accept, h, he, hw]

theorem accept_runs (h : legal = true) (he : s.err = false ∨ worksInError op = true) :
    accept op legal s rule = .next (rule (start op s)) := by
  rcases he with he | he <;> simp [accept, h, he]

/-- The three things that can become of a decoded command (R220, R253). -/
theorem accept_cases (h : accept op legal s rule = .next t) :
    (legal = false ∧ t = raise .illegalCommand s) ∨
    (legal = true ∧ s.err = true ∧ worksInError op = false ∧ t = refuseCommand s) ∨
    (legal = true ∧ (s.err = false ∨ worksInError op = true) ∧ t = rule (start op s)) := by
  unfold accept at h
  cases h
  cases hl : legal with
  | false => simp
  | true =>
    cases he : s.err with
    | false => simp
    | true => cases worksInError op <;> simp

end Accepting

/-- What an admitted configuration is (R6, R7). -/
theorem admitted_iff (c : Config) : c.admitted = true ↔
    c.positiveSizes ∧ c.thresholdsOrdered ∧ c.windowsDisjoint ∧ c.linesFit ∧ c.syncLinesFit ∧
      c.modulatedLinesClear ∧ c.levelsInRange ∧ c.specialHues :=
  decide_eq_true_iff

section Tables

@[simp] theorem tableEntry_tableOf (f : Group → Position → Int) (g : Group) (p : Position) :
    tableEntry (tableOf f) g p = toInt32 (f g p) := by
  simp [tableEntry, tableOf]

theorem tableEntry_tableWrite (t : PhaseTable) (g g' : Group) (p p' : Position) (v : BitVec 32) :
    tableEntry (tableWrite t g p v) g' p' = if g = g' ∧ p = p' then v else tableEntry t g' p' := by
  by_cases hg : g = g'
  · subst hg
    by_cases hp : p = p'
    · subst hp
      simp [tableEntry, tableWrite]
    · have : (p : Nat) ≠ p' := fun h => hp (Fin.ext h)
      simp [tableEntry, tableWrite, hp, this]
  · have : (g : Nat) ≠ g' := fun h => hg (Fin.ext h)
    simp [tableEntry, tableWrite, hg, this]

theorem table_ext {t t' : PhaseTable} (h : ∀ g p, tableEntry t g p = tableEntry t' g p) : t = t' := by
  apply Vector.ext
  intro g hg
  apply Vector.ext
  intro p hp
  exact h ⟨g, hg⟩ ⟨p, hp⟩

@[simp] theorem groupOf_val (n : Nat) : (groupOf n : Nat) = n % 6 := rfl

@[simp] theorem positionOf_val (t : Nat) : (positionOf t : Nat) = t % 4 := rfl

end Tables

section Lines

variable {c : Config} {n lo hi : Nat} {f : Nat → Int} {m : Memory 8}

/-- A line read after part of a line is written, in line and sample coordinates (R61). -/
theorem find_fillLine_cell (hhi : hi ≤ c.hres) {n' t : Nat} (ht : t < c.hres) :
    Memory.find (fillLine c n lo hi f m) (sigCell c n' t) =
      if n' = n ∧ lo ≤ t ∧ t < hi then some (toSample (f t)) else Memory.find m (sigCell c n' t) := by
  have key : (sigCell c n lo ≤ sigCell c n' t ∧ sigCell c n' t < sigCell c n lo + (hi - lo)) ↔
      (n' = n ∧ lo ≤ t ∧ t < hi) := by
    unfold sigCell
    rcases Nat.lt_trichotomy n' n with h | rfl | h
    · have := Nat.mul_le_mul_right c.hres (Nat.succ_le_of_lt h)
      rw [Nat.succ_mul] at this
      omega
    · omega
    · have := Nat.mul_le_mul_right c.hres (Nat.succ_le_of_lt h)
      rw [Nat.succ_mul] at this
      omega
  rw [fillLine, find_fill]
  by_cases h : n' = n ∧ lo ≤ t ∧ t < hi
  · obtain ⟨rfl, h1, h2⟩ := h
    rw [if_pos (key.2 ⟨rfl, h1, h2⟩), if_pos ⟨rfl, h1, h2⟩]
    congr 3
    unfold sigCell
    omega
  · rw [if_neg (mt key.1 h), if_neg h]

/-- Every cell written on a line of the buffer is a cell of the buffer, so a cell past it keeps its value (R64). -/
theorem find_fillLine_outside (hn : n < c.vres) (hhi : hi ≤ c.hres) {a : Nat} (ha : c.vres * c.hres ≤ a) :
    Memory.find (fillLine c n lo hi f m) a = Memory.find m a := by
  have := Nat.mul_le_mul_right c.hres (Nat.succ_le_of_lt hn)
  rw [Nat.succ_mul] at this
  rw [fillLine, find_fill, if_neg]
  unfold sigCell
  omega

theorem wf_fillLine (h : Memory.wf m) : Memory.wf (fillLine c n lo hi f m) := wf_fill h ..

theorem mem_fillLine (hn : n < c.vres) (hhi : hi ≤ c.hres) (h : ∀ e ∈ m, e.1 < c.vres * c.hres) :
    ∀ e ∈ fillLine c n lo hi f m, e.1 < c.vres * c.hres := by
  intro e he
  rcases mem_fill he with he | he
  · have := Nat.mul_le_mul_right c.hres (Nat.succ_le_of_lt hn)
    rw [Nat.succ_mul] at this
    unfold sigCell at he
    omega
  · exact h e he

/-- A cell of the buffer is one sample of one line (R61). -/
theorem sigCell_surj {a : Nat} (ha : a < c.vres * c.hres) : ∃ n t, n < c.vres ∧ t < c.hres ∧ a = sigCell c n t := by
  have h0 : 0 < c.hres := Nat.pos_of_ne_zero fun h => by simp [h] at ha
  exact ⟨a / c.hres, a % c.hres, Nat.div_lt_of_lt_mul (by rwa [Nat.mul_comm]), Nat.mod_lt _ h0, by
    rw [sigCell, Nat.mul_comm, Nat.div_add_mod]⟩

end Lines

section Values

theorem wrap8_range (v : Int) : -128 ≤ wrap8 v ∧ wrap8 v ≤ 127 := by
  unfold wrap8
  omega

/-- A value in range is the value its cell holds. -/
theorem toInt_toSample {v : Int} (h : -128 ≤ v ∧ v ≤ 127) : (toSample v).toInt = v := by
  rw [toSample, BitVec.toInt_ofInt]
  exact Int.bmod_eq_of_le (by omega) (by omega)

/-- A value in range is the value its `int32` register holds. -/
theorem toInt_toInt32 {v : Int} (h : -2 ^ 31 ≤ v ∧ v < 2 ^ 31) : (toInt32 v).toInt = v := by
  rw [toInt32, BitVec.toInt_ofInt]
  exact Int.bmod_eq_of_le (by omega) (by omega)

end Values

section Cells

theorem readSig_congr {s t : State} (a : Nat) (hr : t.resetCount = s.resetCount)
    (h : Memory.find t.sig a = Memory.find s.sig a) : readSig t a = readSig s a := by
  simp [readSig, h, hr]

theorem readSig_of_find {s : State} {a : Nat} {v : Sample} (h : Memory.find s.sig a = some v) : readSig s a = v := by
  simp [readSig, h]

theorem readSrc_congr {s t : State} (a : Nat) (hr : t.resetCount = s.resetCount)
    (h : Memory.find t.src a = Memory.find s.src a) : readSrc t a = readSrc s a := by
  simp [readSrc, h, hr]

/-- Reset leaves both memories in canonical form. -/
theorem reset_memories_wf : Memory.wf State.reset.sig ∧ Memory.wf State.reset.src :=
  ⟨List.Pairwise.nil, List.Pairwise.nil⟩

end Cells

end Sys2Proof.Laws
end

