-- ==== Sys2Proof/Laws/Exec.lean ====
section
/-! SUPPORT. Each arm of `exec` as an accepted command, the turns of `step`, and MODULATE's argument check, so that no proof
unfolds the dispatch. -/

namespace Sys2Proof.Laws

open Machine

variable {s : State}

/-- The sequencer's name for a command (R24). -/
def operationOf : Instr → Operation
  | .nop => .nop
  | .modulate => .modulate
  | .template => .template
  | .burstgen => .burstgen
  | .sample _ _ => .sample
  | .invalidate => .invalidate
  | .clrbuf => .clrbuf
  | .wrreg _ _ => .wrreg
  | .rdreg _ => .rdreg
  | .wrsrc _ _ => .wrsrc
  | .rdsig _ => .rdsig
  | .rdsrc _ => .rdsrc

/-- A command's own rule, run when the command is accepted (R220). -/
def ruleOf (i : Instr) (s : State) : State :=
  match i with
  | .nop => complete 0 s
  | .modulate => if imageAccepted s then complete 0 (modulateField s) else raise .invalidArgument s
  | .template => complete 0 (ensureTemplate s)
  | .burstgen => complete 0 (generateBurst s)
  | .sample pix phase => complete (toInt32 (sample s.cfg (pixelValue pix) phase.toNat)) s
  | .invalidate => complete 0 { s with fi := false }
  | .clrbuf => complete 0 { s with sig := Memory.fill s.sig 0 (s.cfg.vres * s.cfg.hres) fun _ => 0 }
  | .wrreg reg val => complete 0 (writeRegister reg val s)
  | .rdreg reg => complete (readRegister s reg) s
  | .wrsrc addr pix => complete 0 { s with src := Memory.write s.src addr.toNat pix }
  | .rdsig addr => complete ((readSig s addr.toNat).signExtend 32) s
  | .rdsrc addr => complete ((readSrc s addr.toNat).zeroExtend 32) s

/-- Every arm of `exec` is one accepted command: legal when well formed, then its own rule (R101, R220). -/
theorem exec_eq_accept (i : Instr) (s : State) :
    exec i s = accept (operationOf i) (i.wellFormed s.cfg) s (ruleOf i) := by
  cases i <;> rfl

/-- The commands that work while `ERR = 1` are those that change no state (R255). -/
theorem worksInError_operationOf (i : Instr) : worksInError (operationOf i) = !changesState i := by
  cases i <;> rfl

/-- A legal command that is not refused runs its own rule. -/
theorem exec_runs {i : Instr} (hw : i.wellFormed s.cfg = true) (he : s.err = false ∨ changesState i = false) :
    exec i s = .next (ruleOf i (start (operationOf i) s)) := by
  rw [exec_eq_accept]
  exact accept_runs hw (he.imp_right fun h => by rw [worksInError_operationOf, h]; rfl)

/-- MODULATE's check is that the image fits (R182). -/
theorem imageAccepted_iff : imageAccepted s = true ↔ imageFits s := by
  simp only [imageAccepted, Bool.and_eq_true, bne_iff_ne, decide_eq_true_eq, and_assoc]
  rfl

/-- The three sizes that do not fit (R182). -/
theorem not_imageFits_iff : ¬ imageFits s ↔
    s.srcW.toNat = 0 ∨ s.srcH.toNat = 0 ∨ s.cfg.srcCap < s.srcW.toNat * s.srcH.toNat := by
  by_cases h1 : s.srcW.toNat = 0 <;> by_cases h2 : s.srcH.toNat = 0 <;> simp [h1, h2]

/-- A step in `IDLE` and in an admitted configuration is one turn of the host (R220). -/
theorem step_of_idle (ha : s.cfg.admitted = true) (hs : s.seq = .idle) : step s = hostTurn s := by
  simp [step, turn, ha, hs]

/-- Where a step comes from: its state was admitted and in `IDLE`, and the host took a turn. -/
theorem step_next {t : State} (h : step s = .next t) :
    s.cfg.admitted = true ∧ s.seq = .idle ∧ hostTurn s = .next t := by
  unfold step turn at h
  split at h
  · rename_i ha
    split at h
    · exact ⟨ha, by assumption, h⟩
    · cases h
  · cases h

/-- The three turns (R291, R292). -/
theorem hostTurn_cases {t : State} (h : hostTurn s = .next t) :
    (s.pending = [] ∧ t = s) ∨
    (∃ rest, s.pending = .reset :: rest ∧ t = applyReset rest s) ∨
    (∃ cw rest u, s.pending = .command cw :: rest ∧ runWord cw { s with pending := rest } = .next u ∧
      t = returnResponse u) := by
  unfold hostTurn at h
  split at h
  · cases h
    exact .inl ⟨by assumption, rfl⟩
  · cases h
    exact .inr (.inl ⟨_, by assumption, rfl⟩)
  · rename_i cw rest hp
    unfold withResponse at h
    split at h
    · cases h
      exact .inr (.inr ⟨cw, rest, _, hp, by assumption, rfl⟩)
    · cases h
    · cases h

/-- A word is run as the command it decodes to, or raises (R220). -/
theorem runWord_cases {cw : Word} {t : State} (h : runWord cw s = .next t) :
    (∃ i, decodeWord cw = .ok i ∧ exec i s = .next t) ∨
    (∃ e, decodeWord cw = .error e ∧ t = raise .illegalCommand s) := by
  unfold runWord at h
  split at h
  · exact .inl ⟨_, by assumption, h⟩
  · cases h
    exact .inr ⟨_, by assumption, rfl⟩

end Sys2Proof.Laws
end

