-- ==== Sys2Proof/Laws/PerInstr.lean ====
section
/-! SUPPORT. The family `EncodingRow`: the word of every instruction selects its own row of the table of R92. -/

namespace Sys2Proof.Laws.EncodingRow

/-- Columns `match` and `mask` of the row of an instruction (R92). -/
def row : Instr → Word × Word
  | .nop => (0x00000000, 0xFFFFFFFF)
  | .modulate => (0x10000000, 0xFFFFFFFF)
  | .template => (0x20000000, 0xFFFFFFFF)
  | .burstgen => (0x30000000, 0xFFFFFFFF)
  | .sample _ _ => (0x40000000, 0xFE000000)
  | .invalidate => (0x50000000, 0xFFFFFFFF)
  | .clrbuf => (0x60000000, 0xFFFFFFFF)
  | .wrreg _ _ => (0x70000000, 0xF07F0000)
  | .rdreg _ => (0x80000000, 0xF07FFFFF)
  | .wrsrc _ _ => (0x90000000, 0xFE000000)
  | .rdsig _ => (0xA0000000, 0xF0000000)
  | .rdsrc _ => (0xB0000000, 0xF0000000)

/-- The word of `i` selects its row: `cw & mask = match` (R92). -/
def Statement (i : Instr) : Prop := encode i &&& (row i).2 = (row i).1

theorem nop : Statement .nop := by
  unfold Statement
  decide

theorem modulate : Statement .modulate := by
  unfold Statement
  decide

theorem template : Statement .template := by
  unfold Statement
  decide

theorem burstgen : Statement .burstgen := by
  unfold Statement
  decide

theorem sample (pix : PixelCode) (phase : BitVec 16) : Statement (.sample pix phase) := by
  simp only [Statement, encode, row]
  ext k hk
  simp only [BitVec.getElem_and, BitVec.getElem_append]
  interval_cases k <;> simp

theorem invalidate : Statement .invalidate := by
  unfold Statement
  decide

theorem clrbuf : Statement .clrbuf := by
  unfold Statement
  decide

theorem wrreg (reg : BitVec 5) (val : BitVec 16) : Statement (.wrreg reg val) := by
  simp only [Statement, encode, row]
  ext k hk
  simp only [BitVec.getElem_and, BitVec.getElem_append]
  interval_cases k <;> simp

theorem rdreg (reg : BitVec 5) : Statement (.rdreg reg) := by
  simp only [Statement, encode, row]
  ext k hk
  simp only [BitVec.getElem_and, BitVec.getElem_append]
  interval_cases k <;> simp

theorem wrsrc (addr : BitVec 16) (pix : PixelCode) : Statement (.wrsrc addr pix) := by
  simp only [Statement, encode, row]
  ext k hk
  simp only [BitVec.getElem_and, BitVec.getElem_append]
  interval_cases k <;> simp

theorem rdsig (addr : BitVec 28) : Statement (.rdsig addr) := by
  simp only [Statement, encode, row]
  ext k hk
  simp only [BitVec.getElem_and, BitVec.getElem_append]
  interval_cases k <;> simp

theorem rdsrc (addr : BitVec 28) : Statement (.rdsrc addr) := by
  simp only [Statement, encode, row]
  ext k hk
  simp only [BitVec.getElem_and, BitVec.getElem_append]
  interval_cases k <;> simp

end Sys2Proof.Laws.EncodingRow
end

