-- ==== Sys2Proof/Laws/Signal.lean ====
section
/-! SUPPORT. What the builders of the signal can do, said once: the template build, one output line, and all the lines, each
as what a cell of `SIG` or an entry of `CCF` holds after it, and as keeping the canonical form and the space. -/

namespace Sys2Proof.Laws

open Machine

/-- After the unguarded build every sample of every line holds the pattern (R122). -/
theorem find_buildTemplate_cell {c : Config} {m : Memory 8} {n t : Nat} (hn : n < c.vres) (ht : t < c.hres) :
    Memory.find (buildTemplate c m) (sigCell c n t) = some (toSample (templateLevel c n t)) := by
  have := loop_induction (lo := 0) (hi := c.vres) (s := m)
    (body := fun n m => fillLine c n 0 c.hres (templateLevel c n) m)
    (P := fun i m' => n < i → Memory.find m' (sigCell c n t) = some (toSample (templateLevel c n t)))
    (Nat.zero_le _) (fun h => absurd h (Nat.not_lt_zero _)) fun i m' _ _ ih h => by
      rw [find_fillLine_cell (Nat.le_refl _) ht]
      by_cases hi : n = i
      · simp [hi, ht]
      · rw [if_neg (by simp [hi])]
        exact ih (by omega)
  exact this hn

theorem find_buildTemplate_outside {c : Config} {m : Memory 8} {a : Nat} (ha : c.vres * c.hres ≤ a) :
    Memory.find (buildTemplate c m) a = Memory.find m a :=
  loop_keeps (P := fun m' => Memory.find m' a = Memory.find m a) _ _ rfl fun _ _ _ hi ih => by
    rw [find_fillLine_outside hi (Nat.le_refl _) ha, ih]

theorem wf_buildTemplate {c : Config} {m : Memory 8} (h : Memory.wf m) : Memory.wf (buildTemplate c m) :=
  loop_keeps _ _ h fun _ _ _ _ ih => wf_fillLine ih

theorem mem_buildTemplate {c : Config} {m : Memory 8} (h : ∀ e ∈ m, e.1 < c.vres * c.hres) :
    ∀ e ∈ buildTemplate c m, e.1 < c.vres * c.hres :=
  loop_keeps (P := fun m' : Memory 8 => ∀ e ∈ m', e.1 < c.vres * c.hres) _ _ h
    fun _ _ _ hi ih => mem_fillLine hi (Nat.le_refl _) ih

/-- What one output line writes to a sample of its own line (R186, R188, R193). -/
def lineSample (s : State) (y t : Nat) : Option Sample :=
  if s.cfg.avBeg ≤ t ∧ t < s.cfg.avBeg + s.cfg.avLen then some (toSample (wrap8 (activeOutput s y (t - s.cfg.avBeg))))
  else if s.cfg.cbBeg ≤ t ∧ t < burstEnd s.cfg then some (toSample (burstAt s (s.cfg.top + y) t))
  else if s.cfg.syncEnd ≤ t ∧ t < s.cfg.cbBeg then some (toSample s.cfg.syncLevel)
  else none

section

variable {s : State} {m : Memory 8} (ha : s.cfg.admitted)
include ha

theorem burstEnd_le : burstEnd s.cfg ≤ s.cfg.hres := ((admitted_iff _).1 ha).2.1.2.2

theorem cbBeg_le : s.cfg.cbBeg ≤ s.cfg.hres := Nat.le_trans (Nat.le_add_right _ _) (burstEnd_le ha)

theorem activeEnd_le : s.cfg.avBeg + s.cfg.avLen ≤ s.cfg.hres := ((admitted_iff _).1 ha).2.2.1.1

theorem line_lt {y : Nat} (hy : y < s.cfg.lines) : s.cfg.top + y < s.cfg.vres := by
  have := ((admitted_iff _).1 ha).2.2.2.1.1
  omega

/-- One output line writes the three windows of its own line and no other sample. -/
theorem find_lineSignal_cell {y n t : Nat} (ht : t < s.cfg.hres) :
    Memory.find (lineSignal s y m) (sigCell s.cfg n t) =
      if n = s.cfg.top + y then (lineSample s y t).or (Memory.find m (sigCell s.cfg n t))
      else Memory.find m (sigCell s.cfg n t) := by
  simp only [lineSignal, find_fillLine_cell (activeEnd_le ha) ht, find_fillLine_cell (burstEnd_le ha) ht,
    find_fillLine_cell (cbBeg_le ha) ht, lineSample]
  by_cases hn : n = s.cfg.top + y
  · by_cases h1 : s.cfg.avBeg ≤ t ∧ t < s.cfg.avBeg + s.cfg.avLen
    · simp [hn, h1]
    · by_cases h2 : s.cfg.cbBeg ≤ t ∧ t < burstEnd s.cfg
      · simp [hn, h1, h2]
      · by_cases h3 : s.cfg.syncEnd ≤ t ∧ t < s.cfg.cbBeg <;> simp [hn, h1, h2, h3]
  · simp [hn]

/-- After all the lines, a sample of a modulated line holds what its own line wrote to it; no other line touches it. -/
theorem find_lines_cell {n t : Nat} (ht : t < s.cfg.hres) :
    Memory.find (loop 0 s.cfg.lines (lineSignal s) m) (sigCell s.cfg n t) =
      if s.cfg.top ≤ n ∧ n < s.cfg.top + s.cfg.lines then
        (lineSample s (n - s.cfg.top) t).or (Memory.find m (sigCell s.cfg n t))
      else Memory.find m (sigCell s.cfg n t) := by
  refine (loop_induction (P := fun i m' => (if s.cfg.top ≤ n ∧ n < s.cfg.top + i then
    (lineSample s (n - s.cfg.top) t).or (Memory.find m (sigCell s.cfg n t))
    else Memory.find m (sigCell s.cfg n t)) = Memory.find m' (sigCell s.cfg n t)) (Nat.zero_le _) ?_ ?_).symm
  · rw [if_neg (by omega)]
  · intro i m' _ _ ih
    rw [find_lineSignal_cell ha ht, ← ih]
    by_cases hi : n = s.cfg.top + i
    · subst hi
      simp
    · simp only [hi, if_false]
      by_cases h : s.cfg.top ≤ n ∧ n < s.cfg.top + i
      · rw [if_pos h, if_pos (by omega)]
      · rw [if_neg h, if_neg (by omega)]

theorem find_lineSignal_outside {y a : Nat} (hy : y < s.cfg.lines) (hs : s.cfg.vres * s.cfg.hres ≤ a) :
    Memory.find (lineSignal s y m) a = Memory.find m a := by
  have hn := line_lt ha hy
  simp only [lineSignal]
  rw [find_fillLine_outside hn (activeEnd_le ha) hs, find_fillLine_outside hn (burstEnd_le ha) hs,
    find_fillLine_outside hn (cbBeg_le ha) hs]

theorem find_lines_outside {a : Nat} (hs : s.cfg.vres * s.cfg.hres ≤ a) :
    Memory.find (loop 0 s.cfg.lines (lineSignal s) m) a = Memory.find m a :=
  loop_keeps (P := fun m' => Memory.find m' a = Memory.find m a) _ _ rfl fun _ _ _ hi ih => by
    rw [find_lineSignal_outside ha hi hs, ih]

theorem mem_lineSignal {y : Nat} (hy : y < s.cfg.lines) (h : ∀ e ∈ m, e.1 < s.cfg.vres * s.cfg.hres) :
    ∀ e ∈ lineSignal s y m, e.1 < s.cfg.vres * s.cfg.hres := by
  have hn := line_lt ha hy
  simp only [lineSignal]
  exact mem_fillLine hn (activeEnd_le ha) (mem_fillLine hn (burstEnd_le ha) (mem_fillLine hn (cbBeg_le ha) h))

theorem mem_lines (h : ∀ e ∈ m, e.1 < s.cfg.vres * s.cfg.hres) :
    ∀ e ∈ loop 0 s.cfg.lines (lineSignal s) m, e.1 < s.cfg.vres * s.cfg.hres :=
  loop_keeps (P := fun m' : Memory 8 => ∀ e ∈ m', e.1 < s.cfg.vres * s.cfg.hres) _ _ h fun _ _ _ hi ih =>
    mem_lineSignal ha hi ih

end

theorem wf_lineSignal {s : State} {m : Memory 8} {y : Nat} (h : Memory.wf m) : Memory.wf (lineSignal s y m) := by
  simp only [lineSignal]
  exact wf_fillLine (wf_fillLine (wf_fillLine h))

theorem wf_lines {s : State} {m : Memory 8} (h : Memory.wf m) : Memory.wf (loop 0 s.cfg.lines (lineSignal s) m) :=
  loop_keeps _ _ h fun _ _ _ _ ih => wf_lineSignal ih

/-- Writing one entry keeps a relation that the written value satisfies and every old entry did. -/
theorem entries_tableWrite {t : PhaseTable} {P : Group → Position → BitVec 32 → Prop} {g : Group} {p : Position}
    {v : BitVec 32} (h : ∀ g p, P g p (tableEntry t g p)) (hv : P g p v) :
    ∀ g' p', P g' p' (tableEntry (tableWrite t g p v) g' p') := by
  intro g' p'
  rw [tableEntry_tableWrite]
  split
  · rename_i h'
    obtain ⟨rfl, rfl⟩ := h'
    exact hv
  · exact h g' p'

end Sys2Proof.Laws
end

