-- ==== Sys2Proof/Machine/Assembler.lean ====
section
/-! DEFINITION. The textual syntax of R105: one command or pseudo-operation per line, read into the commands it stands for.
Nothing of the block depends on it; what R105 leaves open is log entry 17. -/

namespace Sys2Proof.Machine

/-- The value of one digit, in decimal or hexadecimal. -/
def digitValue (ch : Char) : Option Nat :=
  if '0' ≤ ch ∧ ch ≤ '9' then some (ch.toNat - 48)
  else if 'a' ≤ ch ∧ ch ≤ 'f' then some (ch.toNat - 87)
  else if 'A' ≤ ch ∧ ch ≤ 'F' then some (ch.toNat - 55)
  else none

/-- The number that digits of a base make, after those read into `acc`. -/
def readDigits (base acc : Nat) : List Char → Option Nat
  | [] => some acc
  | ch :: rest =>
    match digitValue ch with
    | some d => if d < base then readDigits base (acc * base + d) rest else none
    | none => none

/-- A number in decimal or `0x` hexadecimal (R105). -/
def readNat : List Char → Option Nat
  | [] => none
  | '0' :: 'x' :: d :: rest => readDigits 16 0 (d :: rest)
  | ds => readDigits 10 0 ds

/-- A number below `bound`. -/
def readBelow (bound : Nat) (w : List Char) : Option Nat :=
  (readNat w).bind fun n => if n < bound then some n else none

/-- A value for WRREG: 16 bits, a negative one as its low 16 bits (R105). -/
def readValue : List Char → Option (BitVec 16)
  | '-' :: w => (readBelow (2 ^ 15 + 1) w).map fun n => BitVec.ofInt 16 (-(n : Int))
  | w => (readBelow (2 ^ 16) w).map (BitVec.ofNat 16)

/-- The registers WRREG may name (R105). -/
def writableName (w : List Char) : Option (BitVec 5) :=
  match String.ofList w with
  | "BLACK_POINT" => some 1
  | "WHITE_POINT" => some 2
  | "HUE" => some 3
  | "SRC_W" => some 4
  | "SRC_H" => some 5
  | _ => none

/-- The further names RDREG may use (R27, R105): `STATUS`, `CC_PERIOD` and `CCF[g][p]`. -/
def readableName (w : List Char) : Option (BitVec 5) :=
  match w with
  | ['C', 'C', 'F', '[', g, ']', '[', p, ']'] =>
    match digitValue g, digitValue p with
    | some g, some p => if g < 6 ∧ p < 4 then some (ccfRegister (Fin.ofNat 6 g) (Fin.ofNat 4 p)) else none
    | _, _ => none
  | _ =>
    match String.ofList w with
    | "STATUS" => some 0
    | "CC_PERIOD" => some 6
    | _ => writableName w

/-- The register operand of WRREG: a number 1 to 5 or a name (R105). -/
def readWritable (w : List Char) : Option (BitVec 5) :=
  match readBelow 6 w with
  | some 0 => none
  | some n => some (BitVec.ofNat 5 n)
  | none => writableName w

/-- The register operand of RDREG: a number 0 to 6 or 8 to 31, or a name (R105). -/
def readReadable (w : List Char) : Option (BitVec 5) :=
  match readBelow 32 w with
  | some 7 => none
  | some n => some (BitVec.ofNat 5 n)
  | none => readableName w

/-- A line cut into words at blanks and at commas, a comma being a word of its own; a `;` ends it (R105). -/
def words (current : List Char) : List Char → List (List Char)
  | [] => if current.isEmpty then [] else [current.reverse]
  | ';' :: _ => if current.isEmpty then [] else [current.reverse]
  | ',' :: rest => (if current.isEmpty then [] else [current.reverse]) ++ [','] :: words [] rest
  | ch :: rest =>
    if ch = ' ' ∨ ch = '\t' then (if current.isEmpty then [] else [current.reverse]) ++ words [] rest
    else words (ch :: current) rest

/-- A command without operands (R105). -/
def readPlain (m : List Char) : Option (List Instr) :=
  match String.ofList m with
  | "NOP" => some [.nop]
  | "MODULATE" => some [.modulate]
  | "TEMPLATE" => some [.template]
  | "BURSTGEN" => some [.burstgen]
  | "INVALIDATE" => some [.invalidate]
  | "CLRBUF" => some [.clrbuf]
  | "REBUILD" => some rebuild
  | _ => none

/-- A command with one operand (R105). -/
def readOne (m a : List Char) : Option (List Instr) :=
  match String.ofList m with
  | "RDREG" => (readReadable a).map fun r => [.rdreg r]
  | "RDSIG" => (readBelow (2 ^ 28) a).map fun n => [.rdsig (BitVec.ofNat 28 n)]
  | "RDSRC" => (readBelow (2 ^ 28) a).map fun n => [.rdsrc (BitVec.ofNat 28 n)]
  | _ => none

/-- A command with two operands (R105); `RDSIG n, t` needs the stride of the configuration, and WRSRC takes the 16 bits of a
host-side cell (R62). -/
def readTwo (c : Config) (m a b : List Char) : Option (List Instr) :=
  match String.ofList m with
  | "SAMPLE" => (readBelow (2 ^ 9) a).bind fun pix => (readBelow (2 ^ 16) b).map fun phase =>
      [.sample (BitVec.ofNat 9 pix) (BitVec.ofNat 16 phase)]
  | "WRREG" => (readWritable a).bind fun r => (readValue b).map fun v => [.wrreg r v]
  | "WRSRC" => (readBelow (2 ^ 16) a).bind fun cell => (readBelow (2 ^ 16) b).map fun v =>
      [wrsrcHostCell (BitVec.ofNat 16 cell) (BitVec.ofNat 16 v)]
  | "RDSIG" => (readBelow c.vres a).bind fun n => (readBelow c.hres b).bind fun t => (rdsigAt c n t).map fun i => [i]
  | "SETCAL" => (readValue a).bind fun v => (readValue b).map fun w => setcal v w
  | "SETIMG" => (readBelow (2 ^ 16) a).bind fun w => (readBelow (2 ^ 16) b).map fun h =>
      setimg (BitVec.ofNat 16 w) (BitVec.ofNat 16 h)
  | _ => none

/-- The commands one line of text stands for: none for a line that is blank or only a comment (R105). -/
def assembleLine (c : Config) (line : List Char) : Option (List Instr) :=
  match words [] line with
  | [] => some []
  | [m] => readPlain m
  | [m, a] => readOne m a
  | [m, a, [','], b] => readTwo c m a b
  | _ => none

/-- The commands a text of several lines stands for. -/
def assemble (c : Config) : List (List Char) → Option (List Instr)
  | [] => some []
  | line :: rest => (assembleLine c line).bind fun cmds => (assemble c rest).map fun more => cmds ++ more

end Sys2Proof.Machine
end

