-- ==== Sys2Proof/Tests/Slice0.lean ====
section
/-! SUPPORT. The model's own tests. Expected values are those of spec/95_test_vectors.md, of the rules' worked examples, or
computed by hand from a rule. The last part shows for each statement with hypotheses a state and operands that meet them. -/

namespace Sys2Proof.Tests

open Machine

/-- A small admitted configuration with the levels of `TOY`: 11 lines of 8 samples, 4 cells of source image. -/
def smallConfig : Config :=
  { Config.toy with
    hres := 8
    vres := 11
    top := 5
    lines := 6
    syncBeg := 0
    syncEnd := 1
    cbBeg := 2
    cbCycles := 1
    avBeg := 6
    avLen := 2
    eqLines := [0, 4]
    vsFirst := 1
    srcCap := 4 }

/-- An instance of that configuration right after reset. -/
def fresh : State := State.afterReset smallConfig 0

/-- The same with a one-cell image of the given code. -/
def withPixel (pix : PixelCode) : State := { fresh with srcW := 1, srcH := 1, src := [(0, pix)] }

/-- An instance that has recorded a failure of MODULATE. -/
def failed : State := { fresh with err := true, errcode := 1 }

/-- The state an outcome carries, the given one if it carries none. -/
def after (s : State) : Host.Outcome State Fault Refusal → State
  | .next t => t
  | _ => s

/-- The state after one command. -/
def run1 (i : Instr) (s : State) : State := after s (exec i s)

/-- The sample of line `n`, position `t` as a number. -/
def sampleAt (s : State) (n t : Nat) : Int := (readSig s (sigCell s.cfg n t)).toInt

/-- A line of a phase table as numbers. -/
def rowOf (t : PhaseTable) (g : Group) : List Int :=
  [(tableEntry t g 0).toInt, (tableEntry t g 1).toInt, (tableEntry t g 2).toInt, (tableEntry t g 3).toInt]

/-! Well-formedness: one ill-formed command for each check of R101 items 3 to 6 -/

theorem test_wf_wrreg : (Instr.wrreg 0 1).wellFormed Config.toy = false ∧
    (Instr.wrreg 6 6).wellFormed Config.toy = false ∧ (Instr.wrreg 5 0).wellFormed Config.toy = true := by decide

theorem test_wf_rdreg : (Instr.rdreg 7).wellFormed Config.toy = false ∧
    (Instr.rdreg 6).wellFormed Config.toy = true ∧ (Instr.rdreg 31).wellFormed Config.toy = true := by decide

theorem test_wf_rdsig : (Instr.rdsig 1200).wellFormed Config.toy = false ∧
    (Instr.rdsig 1199).wellFormed Config.toy = true := by decide

theorem test_wf_rdsrc : (Instr.rdsrc 4).wellFormed smallConfig = false ∧
    (Instr.rdsrc 3).wellFormed smallConfig = true := by decide

theorem test_wf_wrsrc : (Instr.wrsrc 4 0).wellFormed smallConfig = false ∧
    (Instr.wrsrc 3 0x1FF).wellFormed smallConfig = true := by decide

theorem test_wf_others : (Instr.sample 0x1FF 65535).wellFormed Config.toy = true ∧
    Instr.nop.wellFormed Config.toy = true := by decide

/-! Decoding: words of sections 2.1 to 2.7 of the vectors and of the operation rules, written out from R91 and R92 -/

theorem test_decode_nop : decodeWord 0x00000000 = .ok .nop := by decide

theorem test_decode_modulate : decodeWord 0x10000000 = .ok .modulate := by decide

theorem test_decode_template : decodeWord 0x20000000 = .ok .template := by decide

theorem test_decode_burstgen : decodeWord 0x30000000 = .ok .burstgen := by decide

theorem test_decode_sample : decodeWord 0x40000C16 = .ok (.sample 0x016 6) ∧
    decodeWord 0x41FFFFFF = .ok (.sample 0x1FF 65535) := by decide

theorem test_decode_invalidate : decodeWord 0x50000000 = .ok .invalidate := by decide

theorem test_decode_clrbuf : decodeWord 0x60000000 = .ok .clrbuf := by decide

theorem test_decode_wrreg : decodeWord 0x7080EC78 = .ok (.wrreg 1 (BitVec.ofInt 16 (-5000))) ∧
    decodeWord 0x7200FFFF = .ok (.wrreg 4 0xFFFF) := by decide

theorem test_decode_rdreg : decodeWord 0x8C000000 = .ok (.rdreg 24) ∧ decodeWord 0x8F800000 = .ok (.rdreg 31) := by decide

theorem test_decode_wrsrc : decodeWord 0x9000040D = .ok (.wrsrc 2 0x00D) ∧
    decodeWord 0x900007E1 = .ok (.wrsrc 3 0x1E1) := by decide

theorem test_decode_rdsig : decodeWord 0xA00004AF = .ok (.rdsig 1199) := by decide

theorem test_decode_rdsrc : decodeWord 0xB0000003 = .ok (.rdsrc 3) := by decide

theorem test_decode_reserved : decodeWord 0xC0000000 = .error .reservedOpcode ∧
    decodeWord 0xFFFFFFFF = .error .reservedOpcode ∧ decodeWord 0x10000001 = .error .reservedField ∧
    decodeWord 0x42000C16 = .error .reservedField ∧ decodeWord 0x70810000 = .error .reservedField := by decide

/-- The first byte of a transport is the least significant (R63). -/
theorem test_decode_bytes : decodeBytes [0x16, 0x0C, 0x00, 0x40, 0xFF] = .ok (.sample 0x016 6, [0xFF]) ∧
    decodeBytes [0x00, 0x00, 0x00] = .error .tooFewBytes := by decide

theorem test_cell_bytes : bytesOfCell 0x01E1 = [0xE1, 0x01] ∧ cellOfBytes 0xE1 0x01 = 0x01E1 := by decide

theorem test_decode_table_word : decodeTableWord 32 0x83000000 = some (.rdreg 6) ∧
    decodeTableWord 32 0xC0000000 = none := by decide

/-! Arithmetic (section 2.1 of the vectors) -/

theorem test_division_and_shift : tdiv (-7) 2 = -3 ∧ asr (-7) 1 = -4 ∧ tdiv (-499300) 110 = -4539 ∧
    asr (-4539) 12 = -2 ∧ asr (-1) 12 = -1 := by decide

theorem test_wrap8 : [100, 127, 128, 200, -128, -129, 2383, -2383].map wrap8 =
    [100, 127, -128, -56, -128, 127, 79, -79] := by decide

theorem test_degToUnits : [195, 135, 705, -205, -25, 65].map (degToUnits Config.toy) =
    [8874, 6144, 32085, -9329, -1137, 2958] := by decide

theorem test_sinTri : [0, 4096, 8192, 12288, 16384, 6144, 8874, -9329, 7054].map sinTri =
    [0, 32768, 0, -32768, 0, 16384, -5456, 9096, 9104] := by decide

/-! The sampler (sections 2.3 and 2.5 of the vectors) -/

theorem test_sample_active_half : [0, 1, 5, 6, 11, 13, 25].map (Machine.sample Config.toy 0x016) =
    [0, 0, 0, 75693, 75693, 0, 0] := by decide

theorem test_sample_emphasis : (List.range 12).map (Machine.sample Config.toy 0x056) =
    [-8028, -8028, 0, 0, 0, 0, 75693, 75693, 52181, 52181, 52181, 52181] := by decide

theorem test_sample_emphasis_blue : (List.range 12).map (Machine.sample Config.toy 0x116) =
    [0, 0, 0, 0, -8028, -8028, 52181, 52181, 52181, 52181, 75693, 75693] := by decide

theorem test_sample_special_hues : Machine.sample Config.toy 0x010 3 = 75693 ∧ Machine.sample Config.toy 0x00D 0 = -12042 ∧
    Machine.sample Config.toy 0x1CD 9 = -17203 ∧ Machine.sample Config.toy 0x1FF 4 = 0 ∧
    Machine.sample Config.toy 0x216 6 = 75693 := by decide

/-- R140's worked example: the response of `SAMPLE 0x016, 6`. -/
theorem test_exec_sample : (run1 (.sample 0x016 6) fresh).resp = 75693 := by decide

/-- A negative amplitude is answered in two's complement. -/
theorem test_exec_sample_negative : (run1 (.sample 0x00D 0) fresh).resp = BitVec.ofInt 32 (-12042) := by decide

/-! The template (section 2.2 of the vectors) -/

theorem test_template_boundaries : [(0, 1), (0, 2), (0, 24), (0, 25), (0, 26), (0, 27), (4, 22), (4, 23), (4, 24), (4, 25),
      (4, 47), (4, 48), (4, 49), (10, 1), (10, 2), (10, 5), (10, 6)].map (fun e => templateLevel Config.toy e.1 e.2) =
    [-40, 0, 0, -40, -40, 0, -40, 0, 0, -40, -40, 0, 0, 0, -40, -40, 0] := by decide

theorem test_thresholds : [4, 46, 50, 54, 96].map (threshold Config.reference) = [45, 522, 567, 612, 1089] := by decide

/-- By R123 and R127, with `HRES = 8`: line 0 has its second pulse nowhere (`thr(50) = thr(54) = 4`), line 1 is sync until
`thr(46) = 3`, line 5 has its tip in sample 0. -/
theorem test_exec_template : let t := run1 .template fresh
    t.fi = true ∧ sampleAt t 0 0 = 0 ∧ sampleAt t 1 2 = -40 ∧ sampleAt t 1 3 = 0 ∧ sampleAt t 5 0 = -40 ∧
      sampleAt t 10 7 = 0 := by decide +kernel

theorem test_exec_template_guarded : (run1 .template { fresh with fi := true, sig := [(3, 9)] }).sig = [(3, 9)] := by decide

/-! The burst generator (section 2.4 of the vectors) -/

theorem test_exec_burstgen : let t := run1 .burstgen { fresh with cfg := Config.toy }
    rowOf t.ccb 0 = [-6, -27, 5, 26] ∧ rowOf t.ccf 3 = [-27, -6, 26, 5] ∧ rowOf t.ccf 5 = [5, 26, -6, -27] := by
  decide +kernel

theorem test_exec_burstgen_negative_angle : let t := run1 .burstgen { fresh with cfg := Config.toy, hue := BitVec.ofInt 16 (-400) }
    rowOf t.ccb 0 = [8, -24, -9, 23] ∧ rowOf t.ccb 5 = [-9, 23, 8, -24] := by
  decide +kernel

/-- Two configurations with different sines: at `HUE = 0` entry [1][0] takes `SIN(6144)`, 16384 in one and -1 in the other, and
`asr(-1, 10) = -1`. -/
theorem test_sine_is_a_parameter : (let c := { Config.toy with sin := .external [(6144, 16384)] 0 }; burstSine c 0 1 0 = 16) ∧
    (let c := { Config.toy with sin := .external [(6144, -1)] 0 }; burstSine c 0 1 0 = -1) := by decide

theorem test_burst_sample : [-6, -27, 5, 26].map (burstSample Config.toy) = [-4, -17, 3, 16] := by decide

/-! The modulator (sections 2.5 and Part 3 of the vectors) -/

theorem test_start_phases : (List.range 12).map (fun y => startPhase Config.toy (10 + y)) =
    [26, 22, 6, 2, 10, 6, 14, 10, 18, 14, 22, 18] := by decide

theorem test_source_rows : (List.range 12).map (sourceRow Config.toy 30) =
    [0, 2, 5, 7, 10, 12, 15, 17, 20, 22, 25, 27] := by decide

theorem test_rescale : rescale (lineSum Config.toy 0 0x016 29) 100 = 50 ∧ rescale (lineSum Config.toy 0 0x00D 0) 100 = -11 ∧
    rescale (lineSum Config.toy 0 0x1E1 50) 100 = 60 ∧ wrap8 (rescale (lineSum Config.toy 32767 0x00E 0) 32767) = 79 := by
  decide

/-- Line 5 has `n mod 6 = 5`, whose burst samples are 3, 16, −4, −17 by position; its window starts at position 2. The tip
reaches through the breezeway, and the black image gives 0. -/
theorem test_exec_modulate : let t := run1 .modulate (withPixel 0x00E)
    t.err = false ∧ t.fi = true ∧ t.ccPeriod = 6 ∧
      (List.range 8).map (sampleAt t 5) = [-40, -40, -4, -17, 3, 16, 0, 0] ∧
      rowOf t.ccf 5 = [384, 2048, -512, -2176] := by
  decide +kernel

/-- Pixel 0x016 on line 5: start phase 10, so its taps 10 to 13 sum to 2 · 75693 and give 33, and taps 13 to 16 give 0. -/
theorem test_exec_modulate_colour : let t := run1 .modulate (withPixel 0x016)
    sampleAt t 5 6 = 33 ∧ sampleAt t 5 7 = 0 := by
  decide +kernel

/-! Host commands and exceptions (sections 2.6 and 2.7 of the vectors) -/

theorem test_exec_nop : (run1 .nop failed).resp = 0 ∧ (run1 .nop failed).err = true := by decide

theorem test_exec_invalidate : (run1 .invalidate { fresh with fi := true, sig := [(3, 9)] }).fi = false ∧
    (run1 .invalidate { fresh with fi := true, sig := [(3, 9)] }).sig = [(3, 9)] := by decide

theorem test_exec_clrbuf : let t := run1 .clrbuf { fresh with fi := true, sig := [(3, 9)] }
    t.fi = true ∧ readSig t 0 = 0 ∧ readSig t 3 = 0 ∧ readSig t 87 = 0 := by decide +kernel

theorem test_exec_wrreg : (run1 (.wrreg 1 0xEC78) fresh).blackPoint.toInt = -5000 ∧
    (run1 (.wrreg 4 0xFFFF) fresh).srcW.toNat = 65535 := by decide

theorem test_exec_wrreg_refused : (run1 (.wrreg 4 1) failed).srcW = 0 ∧ (run1 (.wrreg 4 1) failed).errcode = 1 := by decide

theorem test_exec_rdreg : (run1 (.rdreg 1) { fresh with blackPoint := 0xEC78 }).resp = 0xFFFFEC78 ∧
    (run1 (.rdreg 4) { fresh with srcW := 0xFFFF }).resp = 0x0000FFFF ∧ (run1 (.rdreg 0) failed).resp = 0x00000006 := by decide

theorem test_exec_rdreg_table : (run1 (.rdreg 24) { fresh with ccf := tableWrite fresh.ccf 4 0 26 }).resp = 26 := by
  decide +kernel

theorem test_exec_wrsrc : (run1 (.wrsrc 3 0x1E1) { fresh with src := [(0, 7), (3, 1)] }).src = [(0, 7), (3, 0x1E1)] := by decide

theorem test_exec_rdsig : (run1 (.rdsig 5) { fresh with sig := [(5, 0xF0)] }).resp = 0xFFFFFFF0 := by decide

theorem test_exec_rdsrc : (run1 (.rdsrc 3) { fresh with src := [(3, 0x1E1)] }).resp = 0x1E1 := by decide

theorem test_modulate_raises : (run1 .modulate fresh).err = true ∧ (run1 .modulate fresh).errcode = 1 ∧
    (run1 .modulate fresh).fi = false := by decide

theorem test_first_cause_is_kept : (after failed (runWord 0xC0000000 failed)).errcode = 1 ∧
    (after fresh (runWord 0xC0000000 fresh)).errcode = 2 := by decide

/-- A placed word is what the next step runs (RDREG 4), and its response is returned. -/
theorem test_step_runs_placed_word :
    (after fresh (step ({ fresh with srcW := 7 }.withFetchWord 32 0x82000000))).responses = [7] := by decide

theorem test_step_reset : (after failed (step { failed with pending := [.reset] })).err = false := by decide

/-! Textual syntax (R105) -/

theorem test_assemble : assemble Config.toy ["SETIMG 1,1".toList, "; image".toList, "RDSIG 10, 8 ; cell".toList,
      "WRREG BLACK_POINT, -5000".toList, "RDREG CCF[4][0]".toList, "REBUILD".toList] =
    some [.wrreg 4 1, .wrreg 5 1, .rdsig 508, .wrreg 1 0xEC78, .rdreg 24, .clrbuf, .invalidate] := by decide

/-- A host-side cell of 16 bits: bit 9 and above are dropped (R62). -/
theorem test_assemble_host_cell : assembleLine Config.toy "WRSRC 3, 0xFFE1".toList = some [.wrsrc 3 0x1E1] := by decide

/-- A cell index of 2^28 has no field to stand in: the text is refused, not wrapped (log entry 17). -/
theorem test_assemble_wide_index : let c := { Config.toy with hres := 2 ^ 27, vres := 3 }
    assembleLine c "RDSIG 2, 0".toList = none ∧ assembleLine c "RDSIG 1, 134217727".toList = some [.rdsig 0xFFFFFFF] := by
  decide

theorem test_assemble_text : assembleLine Config.toy (textOf (.sample 0x016 6)).toList = some [.sample 0x016 6] ∧
    assembleLine Config.toy "WRREG 6, 1".toList = none ∧ assembleLine Config.toy "RDREG 7".toList = none := by decide

/-! Witnesses: for each statement with hypotheses, by its name, a state and operands that meet them, at the edges of each clause -/

/-- The state with one command word for the host to present. -/
def presenting (cw : Word) (s : State) : State := { s with pending := [.command cw] }

theorem witness_EveryCommandHasOneWord : decodeWord 0x41FFFFFF = .ok (.sample 0x1FF 65535) := by decide

theorem witness_LegalWordsAreThoseThatDecodeWellFormed :
    ([0xA0000058, 0xB0000004, 0x90000800, 0x70000001, 0x73000006, 0x83800000, 0xC0000000, 0xFFFFFFFF,
      0x10000001, 0x42000C16, 0x70810000, 0x80000001, 0xA0000057, 0xB0000003, 0x90000600, 0x70800000, 0x72800000,
      0x83000000, 0x00000000] : List Word).map (fun cw => decide (illegalWord smallConfig cw)) =
    List.replicate 12 true ++ List.replicate 7 false := by decide

theorem witness_StepRunsTheDecodedCommand : let s := presenting 0x00000000 fresh
    s.cfg.admitted = true ∧ s.seq = .idle ∧ s.pending = .command 0x00000000 :: [] ∧ decodeWord 0x00000000 = .ok .nop ∧
      exec .nop { s with pending := [] } = .next fresh :=
  ⟨by decide, rfl, rfl, by decide, rfl⟩

theorem witness_StepWithNothingToDoKeepsTheState : fresh.cfg.admitted = true ∧ fresh.seq = .idle ∧ fresh.pending = [] :=
  ⟨by decide, rfl, rfl⟩

theorem witness_NoStepOutsideIdleOrAdmission :
    ({ fresh with seq := .run .modulate } : State).cfg.admitted = true ∧
      ({ fresh with seq := .run .modulate } : State).seq = .run .modulate ∧
      ¬ (State.afterReset { smallConfig with lines := 5 } 0).cfg.admitted = true :=
  ⟨by decide, rfl, by decide⟩

theorem witness_IllegalWordRaisesAndDoesNothingElse : let s := presenting 0xA0000058 failed
    s.cfg.admitted = true ∧ s.seq = .idle ∧ s.pending = .command 0xA0000058 :: [] ∧ illegalWord s.cfg 0xA0000058 :=
  ⟨by decide, rfl, rfl, by decide⟩

/-- A state whose memories, registers and error record are consistent and not those of reset. -/
def busy : State :=
  { withPixel 0x1E1 with sig := [(0, 0xD8), (87, 1)], pending := [.command 0x10000000, .reset, .command 0x00000000] }

theorem witness_EveryRunEnds : consistent busy := by decide

theorem witness_ApplyingResetGivesTheResetState : let s : State := { failed with pending := [.reset, .command 0x80000000] }
    s.cfg.admitted = true ∧ s.seq = .idle ∧ s.pending = .reset :: [.command 0x80000000] :=
  ⟨by decide, rfl, rfl⟩

theorem witness_RaiseRecordsTheFirstCauseOnly : (Instr.rdsrc 4).wellFormed fresh.cfg = false ∧
    (Instr.wrreg 0 1).wellFormed failed.cfg = false ∧ fresh.err = false ∧ ¬ imageFits fresh := by decide

/-- One image that fits exactly (4 cells of 4), and one of each size that does not. -/
theorem witness_ModulateFailsExactlyOnBadImageSizes :
    let image (w h : BitVec 16) : State := { fresh with srcW := w, srcH := h }
    (image 2 2).err = false ∧ (image 2 2).srcW.toNat ≠ 0 ∧ (image 2 2).srcH.toNat ≠ 0 ∧
      (image 2 2).srcW.toNat * (image 2 2).srcH.toNat ≤ (image 2 2).cfg.srcCap ∧
      (image 0 1).srcW.toNat = 0 ∧ (image 1 0).srcH.toNat = 0 ∧
      (image 5 1).cfg.srcCap < (image 5 1).srcW.toNat * (image 5 1).srcH.toNat := by decide

theorem witness_ErrorRefusesStateChangingCommands : failed.err = true ∧
    (Instr.wrreg 4 1).wellFormed failed.cfg = true ∧ changesState (.wrreg 4 1) = true ∧
    (Instr.rdsig 87).wellFormed failed.cfg = true ∧ changesState (.rdsig 87) = false ∧ Instr.rdsig 87 ≠ .rdreg 0 := by decide

theorem witness_OnlyResetLeavesTheErrorState : let s := presenting 0x10000000 failed
    s.err = true ∧ (∃ t, step s = .next t) ∧ ∀ rest, s.pending ≠ .reset :: rest :=
  ⟨rfl, ⟨_, rfl⟩, nofun⟩

/-- A word of opcode 1 with its highest and with its lowest reserved bit, and the word of MODULATE, each without an image. -/
theorem witness_IllegalityComesBeforeTheImageCheck : fresh.cfg.admitted = true ∧ fresh.seq = .idle ∧ fresh.err = false ∧
    ¬ imageFits fresh ∧ (0x18000000 : Word).toNat / 2 ^ 28 = 1 ∧ (0x18000000 : Word).toNat % 2 ^ 28 ≠ 0 ∧
    (0x10000001 : Word).toNat / 2 ^ 28 = 1 ∧ (0x10000001 : Word).toNat % 2 ^ 28 ≠ 0 ∧
    (presenting 0x10000001 fresh).pending = .command 0x10000001 :: [] ∧
    (presenting 0x10000000 fresh).pending = .command 0x10000000 :: [] := by decide

/-- `ERR = 0`: the hypothesis of the statements InvalidateClearsTheFlag, SampleAnswersTheAmplitude, BurstgenFillsBothTables
and TemplateIsIdempotent (which also asks for `FI = 0`). -/
theorem witness_no_error : fresh.err = false ∧ fresh.fi = false := by decide

theorem witness_ClrbufZeroesEveryCell : fresh.err = false ∧ 87 < fresh.cfg.vres * fresh.cfg.hres ∧
    fresh.cfg.vres * fresh.cfg.hres ≤ 88 := by decide

theorem witness_WrregWritesTheNamedRegister : fresh.err = false ∧ ¬ (1 ≤ (0 : BitVec 5).toNat ∧ (0 : BitVec 5).toNat ≤ 5) ∧
    ¬ (1 ≤ (6 : BitVec 5).toNat ∧ (6 : BitVec 5).toNat ≤ 5) ∧
    (0x70810000 : Word).toNat / 2 ^ 28 = 7 ∧ (0x70810000 : Word).toNat / 2 ^ 16 % 2 ^ 7 ≠ 0 := by decide

theorem witness_RdregAnswersTheRegisterView : fresh.err = false ∧
    (0x80000001 : Word).toNat / 2 ^ 28 = 8 ∧ (0x80000001 : Word).toNat % 2 ^ 23 ≠ 0 := by decide

theorem witness_WrsrcWritesOneCell : fresh.err = false ∧ (3 : BitVec 16).toNat < fresh.cfg.srcCap ∧
    fresh.cfg.srcCap ≤ (4 : BitVec 16).toNat ∧
    (0x92000000 : Word).toNat / 2 ^ 28 = 9 ∧ (0x92000000 : Word).toNat / 2 ^ 25 % 2 ^ 3 ≠ 0 := by decide

theorem witness_WrsrcKeepsTheLowNineBitsOfAHostCell : fresh.err = false ∧ (3 : BitVec 16).toNat < fresh.cfg.srcCap := by decide

theorem witness_RdsigAnswersTheCell : fresh.err = false ∧ (87 : BitVec 28).toNat < fresh.cfg.vres * fresh.cfg.hres ∧
    fresh.cfg.vres * fresh.cfg.hres ≤ (88 : BitVec 28).toNat := by decide

theorem witness_RdsrcAnswersTheCell : fresh.err = false ∧ (3 : BitVec 28).toNat < fresh.cfg.srcCap ∧
    fresh.cfg.srcCap ≤ (4 : BitVec 28).toNat := by decide

/-- Hue 14 for the first clause; for the second hue 13 with all emphasis bits at phase 12, where mask 3 applies: not
luminance-active, emphasis-active. -/
theorem witness_SampleAnswersTheAmplitude : fresh.err = false ∧ 14 ≤ (0x00E : PixelCode).toNat % 16 ∧
    (0x1CD : PixelCode).toNat % 16 < 14 ∧ fresh.cfg.emphMask.toList[(12 : BitVec 16).toNat / 2 % 6]? = some 3 ∧
    (false = true ↔ (0x1CD : PixelCode).toNat % 16 = fresh.cfg.hueWhite ∨
      ((0x1CD : PixelCode).toNat % 16 ≠ fresh.cfg.hueBlack ∧
        ((0x1CD : PixelCode).toNat % 16 + (12 : BitVec 16).toNat) % 12 < 6)) ∧
    (true = true ↔ (0x1CD : PixelCode).toNat / 64 &&& (3 : BitVec 3).toNat ≠ 0) := by decide

theorem witness_ReservedHuesDoNotFollowThePhase : 14 ≤ (14 : Int) % 16 ∧ 14 ≤ (0x1FF : Int) % 16 ∧
    (0x1C0 : Int) % 16 = Config.toy.hueWhite ∧ (0x1CD : Int) % 16 = Config.toy.hueBlack ∧
    Config.toy.hueWhite ≠ Config.toy.hueBlack := by decide

theorem witness_TemplatePatternByRegion : 9 ∈ Config.toy.eqLines ∧ (4 ∉ Config.toy.eqLines ∧
    (Config.toy.vsFirst ≤ 4 ∧ 4 ≤ Config.toy.vsFirst + 2) ∧ (Config.toy.vsFirst ≤ 6 ∧ 6 ≤ Config.toy.vsFirst + 2)) ∧
    (10 ∉ Config.toy.eqLines ∧ ¬ (Config.toy.vsFirst ≤ 10 ∧ 10 ≤ Config.toy.vsFirst + 2)) := by decide

theorem witness_TemplateBuildsOnceUnderItsFlag : ({ fresh with fi := true } : State).err = false ∧
    ({ fresh with fi := true } : State).fi = true ∧ fresh.err = false ∧ fresh.fi = false ∧ 10 < fresh.cfg.vres ∧
    7 < fresh.cfg.hres ∧ fresh.cfg.vres * fresh.cfg.hres ≤ 88 := by decide

/-- An admitted configuration, `ERR = 0` and an image that fits: the hypotheses on the state of ModulateCompletesAndSetsThePeriod,
ModulateKeepsTheTimingRegions, ModulateFillsTheBreezeway, ModulateWritesTheBurstWindow, ModulateRecordsTheWrittenBurst,
ModulateWritesTheActiveVideo, BlackImageGivesTheBlackLevel, BurstDependsOnResiduesOnly, SecondModulateChangesNothing and
HueDoesNotReachTheActiveVideo. -/
theorem witness_modulate : (withPixel 0x00E).cfg.admitted = true ∧ (withPixel 0x00E).err = false ∧
    imageFits (withPixel 0x00E) := by decide

theorem witness_ModulateKeepsTheTimingRegions : let c := smallConfig
    (10 < c.vres ∧ 0 < c.hres ∧ ¬ rewritten c 10 0) ∧ (4 < c.vres ∧ 7 < c.hres ∧ ¬ rewritten c 4 7) ∧
      rewritten c 5 1 ∧ rewritten c 10 7 ∧ c.vres * c.hres ≤ 88 := by decide

/-- The first clause of ClearingAloneLosesTheTiming also asks for `FI = 1`. -/
theorem witness_ClearingAloneLosesTheTiming : let s : State := { withPixel 0x00E with fi := true }
    s.cfg.admitted = true ∧ s.err = false ∧ s.fi = true ∧ imageFits s ∧ 5 < s.cfg.vres ∧ ¬ rewritten s.cfg 5 0 := by decide

theorem witness_ModulateFillsTheBreezeway : let c := smallConfig
    5 < c.lines ∧ c.syncEnd ≤ 1 ∧ 1 < c.cbBeg := by decide

/-- Also for ModulateWritesTheActiveVideo. -/
theorem witness_ModulateWritesTheBurstWindow : let c := smallConfig
    5 < c.lines ∧ c.cbBeg ≤ 2 ∧ 5 < c.cbBeg + 4 * c.cbCycles ∧ 1 < c.avLen := by decide

theorem witness_BlackImageGivesTheBlackLevel : let s := withPixel 0x00E
    ∀ a, a < s.srcW.toNat * s.srcH.toNat → 14 ≤ (readSrc s a).toNat % 16 := by decide

theorem witness_BurstDependsOnResiduesOnly : let c := Config.toy
    c.admitted = true ∧ 0 < c.lines ∧ 6 < c.lines ∧ (c.top + 0) % 6 = (c.top + 6) % 6 ∧ c.cbBeg ≤ 8 ∧
      12 < c.cbBeg + 4 * c.cbCycles ∧ 8 % 4 = 12 % 4 := by decide

theorem witness_CellsOutsideTheImageAreNeverRead : let s := withPixel 0x016
    ∀ a, a < s.srcW.toNat * s.srcH.toNat → readSrc { s with src := [(0, 0x016), (1, 5)] } a = readSrc s a := by decide

theorem witness_SourceIndexStaysInsideTheImage : 1 ≤ 1 ∧ 11 < Config.toy.lines ∧ 23 < Config.toy.avLen := by decide

theorem witness_RescaleIsMonotoneInTheWhitePoint : (100 : Int) ≤ 200 ∧ (0 : Int) ≤ 0 ∧ (-48161 : Int) < 0 := by decide

theorem witness_EveryStepKeepsTheStateConsistent : consistent busy ∧ ∃ t, step busy = .next t :=
  ⟨by decide, ⟨_, rfl⟩⟩

theorem witness_ResetStateIsConsistent : smallConfig.admitted = true ∧ Config.toy.admitted = true ∧
    Config.reference.admitted = true := by decide +kernel

theorem witness_ConfigurationNeverChanges : ∃ t, step busy = .next t := ⟨_, rfl⟩

theorem witness_CoreNeverWritesTheHostsState : (∃ t, exec .modulate busy = .next t) ∧
    (∀ reg v, Instr.modulate ≠ .wrreg reg v) ∧ ∀ a p, Instr.modulate ≠ .wrsrc a p :=
  ⟨⟨_, rfl⟩, nofun, nofun⟩

/-- `FI` is set by TEMPLATE, and cleared by INVALIDATE and by reset. -/
theorem witness_FlagChangesOnlyByItsCommands :
    (∃ t, step (presenting 0x20000000 fresh) = .next t ∧ fresh.fi = false ∧ t.fi = true) ∧
    (∃ t, step (presenting 0x50000000 { fresh with fi := true }) = .next t ∧ t.fi = false) ∧
    (∃ t, step { fresh with fi := true, pending := [.reset] } = .next t ∧ t.fi = false) :=
  ⟨⟨_, rfl, rfl, rfl⟩, ⟨_, rfl, rfl⟩, ⟨_, rfl, rfl⟩⟩

theorem witness_OnlyThreeCommandsWriteTheBuffer : (∃ t, exec .nop fresh = .next t) ∧
    Instr.nop ≠ .template ∧ Instr.nop ≠ .modulate ∧ Instr.nop ≠ .clrbuf ∧ Instr.nop ≠ .burstgen :=
  ⟨⟨_, rfl⟩, by decide, by decide, by decide, by decide⟩

/-- Of three instances number 0 steps to a next state and number 1 is refused; there is no number 3. -/
theorem witness_InstancesDoNotInteract :
    let stuck : State := { fresh with seq := .run .modulate }
    let system := [presenting 0x50000000 fresh, stuck, failed]
    (∃ system', stepInstance 0 system = .next system') ∧ (1 : Nat) ≠ 0 ∧
      (system[0]? = some (presenting 0x50000000 fresh) ∧ ∃ t, step (presenting 0x50000000 fresh) = .next t) ∧
      (system[1]? = some stuck ∧ step stuck = .refused .notIdle) ∧ system[3]? = none :=
  ⟨⟨_, rfl⟩, by decide, ⟨rfl, ⟨_, rfl⟩⟩, ⟨rfl, rfl⟩, rfl⟩

theorem witness_RebuildClearsBufferAndFlag : let s := withProgram (program rebuild) fresh
    s.cfg.admitted = true ∧ s.seq = .idle ∧ s.err = false ∧ s.pending = program rebuild :=
  ⟨by decide, rfl, rfl, rfl⟩

end Sys2Proof.Tests
end

section
/-! The invariant of the machine (R7, R24, R26, R60): every step from a consistent state leaves a consistent state. Inside an
operation the sequencer is not idle (R24), so the operations keep `DataConsistent`, the invariant without the sequencer, and the
end of a command gives the sequencer back. -/

namespace Sys2Proof.Proofs

open Machine Laws

/-- The part of `consistent` that holds inside an operation too, whatever the sequencer does. -/
structure DataConsistent (s : State) : Prop where
  admitted : s.cfg.admitted
  sigWf : Memory.wf s.sig
  srcWf : Memory.wf s.src
  sigIn : sigInSpace s
  srcIn : srcInSpace s
  errorOk : errorRecorded s

theorem consistent_iff {s : State} : consistent s ↔ s.seq = .idle ∧ DataConsistent s := by
  constructor
  · rintro ⟨hadm, hseq, hsig, hsrc, hsigIn, hsrcIn, herr⟩
    exact ⟨hseq, hadm, hsig, hsrc, hsigIn, hsrcIn, herr⟩
  · rintro ⟨hseq, hadm, hsig, hsrc, hsigIn, hsrcIn, herr⟩
    exact ⟨hadm, hseq, hsig, hsrc, hsigIn, hsrcIn, herr⟩

/-! The operations of the state -/

namespace DataConsistent

variable {s : State}

/-- The predicate reads five fields of the state and no other. -/
theorem congr {t : State} (h : DataConsistent s) (hcfg : t.cfg = s.cfg) (hsig : t.sig = s.sig) (hsrc : t.src = s.src)
    (herr : t.err = s.err) (hcode : t.errcode = s.errcode) : DataConsistent t := by
  obtain ⟨hadm, hsigWf, hsrcWf, hsigIn, hsrcIn, herrorOk⟩ := h
  constructor <;> simpa only [sigInSpace, srcInSpace, errorRecorded, hcfg, hsig, hsrc, herr, hcode]

theorem start (h : DataConsistent s) (op : Operation) : DataConsistent (start op s) := { h with }

theorem complete (h : DataConsistent s) (v : Word) : DataConsistent (complete v s) := { h with }

/-- Taking an exception records 1 or 2 where nothing was recorded, and keeps the record that stands (R26, R254). -/
theorem raise (h : DataConsistent s) (e : ExceptionCause) : DataConsistent (raise e s) := by
  refine { h with errorOk := .inr ⟨raise_err .., ?_⟩ }
  rw [raise_errcode]
  rcases h.errorOk with ⟨herr, -⟩ | ⟨herr, hcode⟩
  · cases e <;> simp [errcodeAfterRaise, codeOf, herr]
  · simpa [errcodeAfterRaise, herr] using hcode

theorem generateBurst (h : DataConsistent s) : DataConsistent (generateBurst s) := { h with }

theorem writeRegister (h : DataConsistent s) (reg : BitVec 5) (val : BitVec 16) :
    DataConsistent (writeRegister reg val s) :=
  h.congr (by simp) (by simp) (by simp) (by simp) (by simp)

/-- CLRBUF's fill covers the space of `SIG` exactly (R225). -/
theorem clearSig (h : DataConsistent s) :
    DataConsistent { s with sig := Memory.fill s.sig 0 (s.cfg.vres * s.cfg.hres) fun _ => 0 } where
  admitted := h.admitted
  sigWf := wf_fill h.sigWf ..
  srcWf := h.srcWf
  sigIn e he := (mem_fill he).elim (fun hcell => hcell.2.trans_eq (Nat.zero_add _)) (h.sigIn e)
  srcIn := h.srcIn
  errorOk := h.errorOk

/-- A pixel written to a legal index stays inside the space of `SRC` (R101, R228). -/
theorem writeSrc (h : DataConsistent s) {cell : Nat} (hcell : srcIndexLegal s.cfg cell) (pix : PixelCode) :
    DataConsistent { s with src := Memory.write s.src cell pix } where
  admitted := h.admitted
  sigWf := h.sigWf
  srcWf := wf_write h.srcWf ..
  sigIn := h.sigIn
  srcIn e he := (mem_write he).elim (fun heq => heq.trans_lt (of_decide_eq_true hcell)) (h.srcIn e)
  errorOk := h.errorOk

theorem ensureTemplate (h : DataConsistent s) : DataConsistent (ensureTemplate s) := by
  cases hfi : s.fi with
  | false =>
    rw [ensureTemplate_of_not_fi hfi]
    exact { h with sigWf := wf_buildTemplate h.sigWf, sigIn := mem_buildTemplate h.sigIn }
  | true => rwa [ensureTemplate_of_fi hfi]

theorem modulateLines (h : DataConsistent s) : DataConsistent (modulateLines s) :=
  { h with sigWf := wf_lines h.sigWf, sigIn := mem_lines h.admitted h.sigIn }

theorem modulateField (h : DataConsistent s) : DataConsistent (modulateField s) :=
  h.ensureTemplate.generateBurst.modulateLines

/-! The commands -/

/-- Every well-formed command's own rule keeps the invariant; WRSRC is the one that needs its index check. -/
theorem ruleOf (h : DataConsistent s) {i : Instr} (hw : i.wellFormed s.cfg) : DataConsistent (ruleOf i s) := by
  cases i with
  | modulate =>
    simp only [Laws.ruleOf]
    split
    · exact h.modulateField.complete 0
    · exact h.raise .invalidArgument
  | template => exact h.ensureTemplate.complete 0
  | burstgen => exact h.generateBurst.complete 0
  | clrbuf => exact h.clearSig.complete 0
  | wrreg reg val => exact (h.writeRegister reg val).complete 0
  | wrsrc addr pix => exact (h.writeSrc hw pix).complete 0
  | invalidate => exact { h with }
  | nop | sample | rdreg | rdsig | rdsrc => exact h.complete _

end DataConsistent

theorem ruleOf_seq (i : Instr) (s : State) : (ruleOf i s).seq = .idle := by
  cases i with
  | modulate =>
    simp only [ruleOf]
    split <;> rfl
  | _ => rfl

/-- A raised exception, whatever the sequencer was doing before it, leaves a consistent state (R254). -/
theorem consistent_raise {s : State} (h : DataConsistent s) (e : ExceptionCause) : consistent (raise e s) :=
  consistent_iff.2 ⟨raise_seq .., h.raise e⟩

theorem consistent_exec {i : Instr} {s t : State} (h : DataConsistent s) (hexec : exec i s = .next t) : consistent t := by
  rw [exec_eq_accept] at hexec
  rcases accept_cases hexec with ⟨-, rfl⟩ | ⟨-, -, -, rfl⟩ | ⟨hw, -, rfl⟩
  · exact consistent_raise h _
  · exact consistent_iff.2 ⟨refuseCommand_seq s, h.complete 0⟩
  · exact consistent_iff.2 ⟨ruleOf_seq .., (h.start _).ruleOf hw⟩

theorem consistent_runWord {cw : Word} {s t : State} (h : DataConsistent s) (hrun : runWord cw s = .next t) :
    consistent t := by
  rcases runWord_cases hrun with ⟨i, -, hexec⟩ | ⟨e, -, rfl⟩
  · exact consistent_exec h hexec
  · exact consistent_raise h _

/-- An applied reset empties both memories and clears the error record (R280). -/
theorem consistent_applyReset {s : State} (h : s.cfg.admitted) (rest : List HostAction) : consistent (applyReset rest s) :=
  ⟨h, applyReset_seq .., .nil, .nil, by simp, by simp, .inl ⟨rfl, rfl⟩⟩

/-- Returning a response touches the host's side of the interface only (R292). -/
theorem consistent_returnResponse {s : State} (h : consistent s) : consistent (returnResponse s) := h

/-- Settles O50: by the turn the host takes, and for a command by what becomes of it. -/
theorem everyStepKeepsTheStateConsistent : Obligations.EveryStepKeepsTheStateConsistent := by
  intro s t hs hstep
  obtain ⟨hadm, -, hturn⟩ := step_next hstep
  rcases hostTurn_cases hturn with ⟨-, rfl⟩ | ⟨rest, -, rfl⟩ | ⟨cw, rest, u, -, hrun, rfl⟩
  · exact hs
  · exact consistent_applyReset hadm rest
  · have hdata : DataConsistent { s with pending := rest } := { (consistent_iff.1 hs).2 with }
    exact consistent_returnResponse (consistent_runWord hdata hrun)

end Sys2Proof.Proofs
end

section
/-! The statements of 10_state.md: what every command completes with and keeps (R24, R198), who writes the host's state (R21, R258),
the lifecycle of `FI` (R25), and the hidden burst table (R34). -/

namespace Sys2Proof.Proofs

open Machine Laws

variable {i : Instr} {s t : State}

/-! What every command does -/

/-- What can become of a command, in terms of its own rule (R220, R253). -/
theorem exec_cases (h : exec i s = .next t) :
    t = raise .illegalCommand s ∨ t = refuseCommand s ∨ t = ruleOf i (start (operationOf i) s) := by
  rw [exec_eq_accept] at h
  rcases accept_cases h with ⟨-, ht⟩ | ⟨-, -, -, ht⟩ | ⟨-, -, ht⟩
  · exact .inl ht
  · exact .inr (.inl ht)
  · exact .inr (.inr ht)

theorem exec_answers_next (i : Instr) (s : State) : ∃ t, exec i s = .next t := by
  rw [exec_eq_accept]
  exact ⟨_, rfl⟩

theorem exec_seq (h : exec i s = .next t) : t.seq = .idle := by
  rcases exec_cases h with rfl | rfl | rfl
  · exact raise_seq ..
  · exact refuseCommand_seq s
  · exact ruleOf_seq ..

theorem ruleOf_modulate_of_accepted (h : imageAccepted s = true) :
    ruleOf .modulate s = complete 0 (modulateField s) := by
  simp [ruleOf, h]

theorem ruleOf_modulate_of_rejected (h : imageAccepted s = false) : ruleOf .modulate s = raise .invalidArgument s := by
  simp [ruleOf, h]

/-! The host's state (R21): what no operation of the block's own writes -/

/-- `t` holds the configuration, the host registers, the source image, and the host's side of the interface that `s` holds. -/
structure SameHostState (s t : State) : Prop where
  cfg : t.cfg = s.cfg
  src : t.src = s.src
  blackPoint : t.blackPoint = s.blackPoint
  whitePoint : t.whitePoint = s.whitePoint
  hue : t.hue = s.hue
  srcW : t.srcW = s.srcW
  srcH : t.srcH = s.srcH
  pending : t.pending = s.pending
  responses : t.responses = s.responses
  resetCount : t.resetCount = s.resetCount

theorem SameHostState.registers (h : SameHostState s t) : t.blackPoint = s.blackPoint ∧ t.whitePoint = s.whitePoint ∧
    t.hue = s.hue ∧ t.srcW = s.srcW ∧ t.srcH = s.srcH :=
  ⟨h.blackPoint, h.whitePoint, h.hue, h.srcW, h.srcH⟩

/-- A command writes the host's state only if it is a WRREG, in the register it names, or a WRSRC, in the cell it names. -/
def HostEffect (i : Instr) (s t : State) : Prop :=
  SameHostState s t ∨
  (∃ reg v, i = .wrreg reg v ∧ SameHostState (writeRegister reg v s) t) ∨
  (∃ a p, i = .wrsrc a p ∧ SameHostState { s with src := Memory.write s.src a.toNat p } t)

theorem sameHostState_raise (e : ExceptionCause) (s : State) : SameHostState s (raise e s) := by
  constructor <;> rfl

theorem sameHostState_modulateField (s : State) : SameHostState s (modulateField s) := by
  constructor <;> simp [modulateField]

theorem ruleOf_hostEffect (i : Instr) (op : Operation) (s : State) : HostEffect i s (ruleOf i (start op s)) := by
  cases i with
  | modulate =>
    left
    cases h : imageAccepted (start op s) with
    | true =>
      rw [ruleOf_modulate_of_accepted h]
      exact { sameHostState_modulateField (start op s) with }
    | false =>
      rw [ruleOf_modulate_of_rejected h]
      exact { sameHostState_raise .invalidArgument (start op s) with }
  | template => exact .inl (by constructor <;> simp [ruleOf])
  | wrreg reg v => exact .inr (.inl ⟨reg, v, rfl, by constructor <;> simp [ruleOf]⟩)
  | wrsrc a p => exact .inr (.inr ⟨a, p, rfl, by constructor <;> rfl⟩)
  | nop | burstgen | sample | invalidate | clrbuf | rdreg | rdsig | rdsrc => exact .inl (by constructor <;> rfl)

theorem exec_hostEffect (h : exec i s = .next t) : HostEffect i s t := by
  rcases exec_cases h with rfl | rfl | rfl
  · exact .inl (sameHostState_raise ..)
  · exact .inl (by constructor <;> rfl)
  · exact ruleOf_hostEffect ..

/-- Settles O10: the end of a command gives the sequencer back, and no command writes the host's side of the interface. -/
theorem everyCommandCompletesInIdle : Obligations.EveryCommandCompletesInIdle := by
  intro i s
  obtain ⟨t, h⟩ := exec_answers_next i s
  refine ⟨t, h, exec_seq h, ?_⟩
  rcases exec_hostEffect h with hsame | ⟨reg, v, -, hsame⟩ | ⟨a, p, -, hsame⟩ <;>
    simp [hsame.cfg, hsame.pending, hsame.responses, hsame.resetCount]

/-- Settles O53: by the three effects a command can have on the host's state. -/
theorem coreNeverWritesTheHostsState : Obligations.CoreNeverWritesTheHostsState := by
  intro i s t h
  rcases exec_hostEffect h with hsame | ⟨reg, v, rfl, hsame⟩ | ⟨a, p, rfl, hsame⟩
  · exact ⟨fun _ => hsame.registers, fun _ => hsame.src⟩
  · exact ⟨fun hne => absurd rfl (hne reg v), fun _ => hsame.src.trans (writeRegister_src ..)⟩
  · exact ⟨fun _ => hsame.registers, fun hne => absurd rfl (hne a p)⟩

/-! The flag `FI` (R25) -/

/-- What a command can do to `FI`: nothing, set it by TEMPLATE or MODULATE, or clear it by INVALIDATE. -/
def FlagEffect (i : Instr) (s t : State) : Prop :=
  t.fi = s.fi ∨ (t.fi = true ∧ (i = .template ∨ i = .modulate)) ∨ (t.fi = false ∧ i = .invalidate)

theorem ruleOf_flagEffect (i : Instr) (s : State) : FlagEffect i s (ruleOf i s) := by
  cases i with
  | modulate =>
    cases h : imageAccepted s with
    | true =>
      rw [ruleOf_modulate_of_accepted h]
      exact .inr (.inl ⟨ensureTemplate_fi s, .inr rfl⟩)
    | false =>
      rw [ruleOf_modulate_of_rejected h]
      exact .inl (raise_fi ..)
  | template => exact .inr (.inl ⟨ensureTemplate_fi s, .inl rfl⟩)
  | invalidate => exact .inr (.inr ⟨rfl, rfl⟩)
  | wrreg reg v => exact .inl (writeRegister_fi ..)
  | nop | burstgen | sample | clrbuf | rdreg | wrsrc | rdsig | rdsrc => exact .inl rfl

theorem exec_flagEffect (h : exec i s = .next t) : FlagEffect i s t := by
  rcases exec_cases h with rfl | rfl | rfl
  · exact .inl (raise_fi ..)
  · exact .inl (refuseCommand_fi s)
  · exact ruleOf_flagEffect i (start (operationOf i) s)

/-- A word that changes `FI` decodes to the command that does. -/
theorem runWord_flagEffect {cw : Word} (h : runWord cw s = .next t) :
    t.fi = s.fi ∨ ∃ i, decodeWord cw = .ok i ∧ FlagEffect i s t := by
  rcases runWord_cases h with ⟨i, hdec, hexec⟩ | ⟨e, -, rfl⟩
  · exact .inr ⟨i, hdec, exec_flagEffect hexec⟩
  · exact .inl (raise_fi ..)

theorem step_flagEffect (h : step s = .next t) :
    t.fi = s.fi ∨
    (t.fi = true ∧ ∃ cw rest, s.pending = .command cw :: rest ∧
      (decodeWord cw = .ok .template ∨ decodeWord cw = .ok .modulate)) ∨
    (t.fi = false ∧ ((∃ rest, s.pending = .reset :: rest) ∨
      ∃ cw rest, s.pending = .command cw :: rest ∧ decodeWord cw = .ok .invalidate)) := by
  obtain ⟨-, -, hturn⟩ := step_next h
  rcases hostTurn_cases hturn with ⟨-, rfl⟩ | ⟨rest, hp, rfl⟩ | ⟨cw, rest, u, hp, hrun, rfl⟩
  · exact .inl rfl
  · exact .inr (.inr ⟨applyReset_fi .., .inl ⟨rest, hp⟩⟩)
  · rw [returnResponse_fi]
    rcases runWord_flagEffect hrun with hsame | ⟨i, hdec, hsame | ⟨hset, hi⟩ | ⟨hclear, rfl⟩⟩
    · exact .inl hsame
    · exact .inl hsame
    · exact .inr (.inl ⟨hset, cw, rest, hp, by rcases hi with rfl | rfl <;> simp [hdec]⟩)
    · exact .inr (.inr ⟨hclear, .inr ⟨cw, rest, hp, hdec⟩⟩)

/-- Settles O54: a flag that differs after the step was set or cleared by one of the causes `step_flagEffect` names. -/
theorem flagChangesOnlyByItsCommands : Obligations.FlagChangesOnlyByItsCommands := by
  intro s t hstep
  rcases step_flagEffect hstep with hsame | ⟨hset, hcause⟩ | ⟨hclear, hcause⟩
  · exact ⟨fun h0 h1 => by simp [hsame, h0] at h1, fun h1 h0 => by simp [hsame, h1] at h0⟩
  · exact ⟨fun _ _ => hcause, fun _ h0 => by simp [hset] at h0⟩
  · exact ⟨fun _ h1 => by simp [hclear] at h1, fun _ _ => hcause⟩

/-! The hidden burst table `CCB` (R34) -/

theorem ensureTemplate_with_ccb (s : State) (x : PhaseTable) :
    ensureTemplate { s with ccb := x } = { ensureTemplate s with ccb := x } := by
  unfold ensureTemplate
  split <;> rfl

theorem writeRegister_with_ccb (reg : BitVec 5) (v : BitVec 16) (s : State) (x : PhaseTable) :
    writeRegister reg v { s with ccb := x } = { writeRegister reg v s with ccb := x } := by
  unfold writeRegister
  split <;> rfl

/-- No register of the map shows the hidden table (R27). -/
theorem readRegister_with_ccb (s : State) (x : PhaseTable) (reg : BitVec 5) :
    readRegister { s with ccb := x } reg = readRegister s reg := by
  unfold readRegister
  split
  · rename_i r _
    cases r <;> rfl
  · rfl

/-- MODULATE fills the hidden table before its first line reads it (R184), so nothing of the old one is left. -/
theorem modulateField_with_ccb (s : State) (x : PhaseTable) : modulateField { s with ccb := x } = modulateField s := by
  have hburst : generateBurst (ensureTemplate { s with ccb := x }) = generateBurst (ensureTemplate s) := by
    rw [ensureTemplate_with_ccb]
    rfl
  exact congrArg modulateLines hburst

theorem ruleOf_with_ccb (i : Instr) (s : State) (x : PhaseTable) :
    ∃ y, ruleOf i { s with ccb := x } = { ruleOf i s with ccb := y } := by
  cases i with
  | modulate =>
    cases h : imageAccepted s with
    | true =>
      have h' : imageAccepted { s with ccb := x } = true := h
      rw [ruleOf_modulate_of_accepted h, ruleOf_modulate_of_accepted h', modulateField_with_ccb]
      exact ⟨(modulateField s).ccb, rfl⟩
    | false =>
      have h' : imageAccepted { s with ccb := x } = false := h
      rw [ruleOf_modulate_of_rejected h, ruleOf_modulate_of_rejected h']
      exact ⟨x, rfl⟩
  | burstgen => exact ⟨(generateBurst s).ccb, rfl⟩
  | template => exact ⟨x, by rw [ruleOf, ensureTemplate_with_ccb]; rfl⟩
  | wrreg reg v => exact ⟨x, by rw [ruleOf, writeRegister_with_ccb]; rfl⟩
  | rdreg reg => exact ⟨x, by rw [ruleOf, readRegister_with_ccb]; rfl⟩
  | nop | sample | invalidate | clrbuf | wrsrc | rdsig | rdsrc => exact ⟨x, rfl⟩

/-- Settles O56: neither the checks before a command's own rule nor the rule itself depends on the hidden table. -/
theorem hiddenTableIsNeverObserved : Obligations.HiddenTableIsNeverObserved := by
  intro i s x
  obtain ⟨y, hrule⟩ := ruleOf_with_ccb i (start (operationOf i) s) x
  simp only [exec_eq_accept, accept]
  split
  · split
    · exact ⟨_, x, rfl, rfl⟩
    · exact ⟨_, y, rfl, congrArg _ hrule⟩
  · exact ⟨_, x, rfl, rfl⟩

end Sys2Proof.Proofs
end

section
/-! The statements of 20_memory.md: the host-side cell on a transport and as WRSRC stores it (R62, R63, R293), the source indices of
the core (R64, R66), who writes the signal memory and the tables (R60, R32 to R34), and that the configuration is fixed (R6). -/

namespace Sys2Proof.Proofs

open Machine Laws

variable {i : Instr} {s t : State}

/-! The source indices of the core (R64, R66) -/

/-- Rescaling an index below `n` to a range of `k` values stays inside that range. -/
theorem scaledIndex_lt {y n k : Nat} (hy : y < n) (hk : 1 ≤ k) : y * k / n < k :=
  Nat.div_lt_of_lt_mul (Nat.mul_lt_mul_of_pos_right hy hk)

theorem sourceRow_eq_of_lt {c : Config} {h y : Nat} (hrow : y * h / c.lines < h) : sourceRow c h y = y * h / c.lines := by
  rw [sourceRow, clamp, Nat.max_zero, Nat.min_eq_left hrow.le]

/-- A row and a column of a `w` by `h` image name a cell of that image (R62). -/
theorem srcCell_lt {w h r col : Nat} (hr : r < h) (hcol : col < w) : srcCell w r col < w * h :=
  calc r * w + col < r * w + w := Nat.add_lt_add_left hcol _
    _ = (r + 1) * w := (Nat.succ_mul r w).symm
    _ ≤ h * w := Nat.mul_le_mul_right w hr
    _ = w * h := Nat.mul_comm h w

/-- Settles O48: the scaled row and column are below the image's height and width, so the clamp is the identity. -/
theorem sourceIndexStaysInsideTheImage : Obligations.SourceIndexStaysInsideTheImage := by
  intro c w h y x hw hh hy hx
  have hrow : y * h / c.lines < h := scaledIndex_lt hy hh
  have hcol : sourceColumn c w x < w := scaledIndex_lt hx hw
  rw [sourceRow_eq_of_lt hrow]
  exact ⟨rfl, Nat.le_sub_one_of_lt hrow, Nat.le_sub_one_of_lt hcol, srcCell_lt hrow hcol⟩

/-! The configuration and the reset count, which no command writes -/

theorem HostEffect.cfg (h : HostEffect i s t) : t.cfg = s.cfg := by
  rcases h with hsame | ⟨reg, v, -, hsame⟩ | ⟨a, p, -, hsame⟩
  · exact hsame.cfg
  · exact hsame.cfg.trans (writeRegister_cfg ..)
  · exact hsame.cfg

theorem HostEffect.resetCount (h : HostEffect i s t) : t.resetCount = s.resetCount := by
  rcases h with hsame | ⟨reg, v, -, hsame⟩ | ⟨a, p, -, hsame⟩
  · exact hsame.resetCount
  · exact hsame.resetCount.trans (writeRegister_resetCount ..)
  · exact hsame.resetCount

theorem runWord_cfg {cw : Word} (h : runWord cw s = .next t) : t.cfg = s.cfg := by
  rcases runWord_cases h with ⟨i, -, hexec⟩ | ⟨e, -, rfl⟩
  · exact (exec_hostEffect hexec).cfg
  · exact raise_cfg ..

/-- Settles O52: by the turn the host takes; neither a reset nor a command writes the configuration. -/
theorem configurationNeverChanges : Obligations.ConfigurationNeverChanges := by
  intro s t hstep
  obtain ⟨-, -, hturn⟩ := step_next hstep
  rcases hostTurn_cases hturn with ⟨-, rfl⟩ | ⟨rest, -, rfl⟩ | ⟨cw, rest, u, -, hrun, rfl⟩
  · rfl
  · exact applyReset_cfg ..
  · have hcfg := runWord_cfg hrun
    exact (returnResponse_cfg u).trans hcfg

/-! Who writes `SIG`, the phase tables and the period (R60, R32 to R34) -/

theorem ruleOf_sig (htemplate : i ≠ .template) (hmodulate : i ≠ .modulate) (hclrbuf : i ≠ .clrbuf) :
    (ruleOf i s).sig = s.sig := by
  cases i with
  | template => exact absurd rfl htemplate
  | modulate => exact absurd rfl hmodulate
  | clrbuf => exact absurd rfl hclrbuf
  | wrreg reg v => exact writeRegister_sig ..
  | nop | burstgen | sample | invalidate | rdreg | wrsrc | rdsig | rdsrc => rfl

theorem ruleOf_tables (hburstgen : i ≠ .burstgen) (hmodulate : i ≠ .modulate) :
    (ruleOf i s).ccb = s.ccb ∧ (ruleOf i s).ccf = s.ccf := by
  cases i with
  | burstgen => exact absurd rfl hburstgen
  | modulate => exact absurd rfl hmodulate
  | template => exact ⟨ensureTemplate_ccb s, ensureTemplate_ccf s⟩
  | wrreg reg v => exact ⟨writeRegister_ccb .., writeRegister_ccf ..⟩
  | nop | sample | invalidate | clrbuf | rdreg | wrsrc | rdsig | rdsrc => exact ⟨rfl, rfl⟩

theorem ruleOf_ccPeriod (hmodulate : i ≠ .modulate) : (ruleOf i s).ccPeriod = s.ccPeriod := by
  cases i with
  | modulate => exact absurd rfl hmodulate
  | template => exact ensureTemplate_ccPeriod s
  | wrreg reg v => exact writeRegister_ccPeriod ..
  | nop | burstgen | sample | invalidate | clrbuf | rdreg | wrsrc | rdsig | rdsrc => rfl

/-- Settles O55: a raised or refused command writes none of these, and an accepted one only what its own rule writes. -/
theorem onlyThreeCommandsWriteTheBuffer : Obligations.OnlyThreeCommandsWriteTheBuffer := by
  intro i s t h
  have hcount : t.resetCount = s.resetCount := (exec_hostEffect h).resetCount
  rcases exec_cases h with rfl | rfl | rfl
  · exact ⟨fun _ _ _ _ => rfl, fun _ _ => ⟨rfl, rfl⟩, fun _ => rfl⟩
  · exact ⟨fun _ _ _ _ => rfl, fun _ _ => ⟨rfl, rfl⟩, fun _ => rfl⟩
  · refine ⟨fun ht hm hc a => readSig_congr a hcount ?_, ruleOf_tables, ruleOf_ccPeriod⟩
    rw [ruleOf_sig ht hm hc, start_sig]

/-! The 16-bit host-side source cell (R62, R63, R293) -/

theorem cellOfBytes_toNat (b0 b1 : Byte) : (cellOfBytes b0 b1).toNat = b0.toNat + 256 * b1.toNat := by
  rw [cellOfBytes, BitVec.toNat_append, ← Nat.shiftLeft_add_eq_or_of_lt b0.isLt, Nat.shiftLeft_eq]
  omega

theorem bytesOfCell_toNat (v : BitVec 16) : (bytesOfCell v).map BitVec.toNat = [v.toNat % 256, v.toNat / 256] := by
  have hhigh : v.toNat / 256 < 256 := Nat.div_lt_of_lt_mul v.isLt
  simp [bytesOfCell, Nat.shiftRight_eq_div_pow, hhigh]

/-- The bytes of the cell made of two bytes are those two, as numbers and so as bytes. -/
theorem bytesOfCell_cellOfBytes (b0 b1 : Byte) : bytesOfCell (cellOfBytes b0 b1) = [b0, b1] := by
  have h0 : b0.toNat < 256 := b0.isLt
  have hlow : (b0.toNat + 256 * b1.toNat) % 256 = b0.toNat := by omega
  have hhigh : (b0.toNat + 256 * b1.toNat) / 256 = b1.toNat := by omega
  apply List.map_injective_iff.2 fun _ _ => BitVec.eq_of_toNat_eq
  rw [bytesOfCell_toNat, cellOfBytes_toNat, hlow, hhigh]
  rfl

/-- Settles O3: the cell and its bytes compared as numbers. -/
theorem hostCellTravelsLowByteFirst : Obligations.HostCellTravelsLowByteFirst :=
  ⟨bytesOfCell_toNat, fun b0 b1 => ⟨cellOfBytes_toNat b0 b1, bytesOfCell_cellOfBytes b0 b1⟩⟩

theorem pixelOfHostCell_toNat (v : BitVec 16) : (pixelOfHostCell v).toNat = v.toNat % 2 ^ 9 := by
  simp [pixelOfHostCell]

theorem hostCellOfPixel_toNat (pix : PixelCode) : (hostCellOfPixel pix).toNat = pix.toNat :=
  BitVec.toNat_setWidth_of_le (by decide)

/-- A WRSRC of a cell of the memory changes nothing but `SRC` and the completion, and a read of `SRC` after it is a read after the
write of that cell (R228). -/
theorem exec_wrsrc_of_lt {addr : BitVec 16} (pix : PixelCode) (herr : s.err = false) (haddr : addr.toNat < s.cfg.srcCap) :
    ∃ t, exec (.wrsrc addr pix) s = .next t ∧ t = { s with src := t.src, resp := 0, seq := .idle } ∧
      ∀ a, readSrc t a = if a = addr.toNat then pix else readSrc s a := by
  have hwf : (Instr.wrsrc addr pix).wellFormed s.cfg = true := decide_eq_true haddr
  refine ⟨_, exec_runs hwf (.inl herr), rfl, fun a => ?_⟩
  simp only [readSrc, ruleOf, complete_src, complete_resetCount, start_src, start_resetCount, find_write]
  split <;> rfl

/-- Settles O25: the cell WRSRC writes reads the low 9 bits of the host-side cell, and every other cell what it read before. -/
theorem wrsrcKeepsTheLowNineBitsOfAHostCell : Obligations.WrsrcKeepsTheLowNineBitsOfAHostCell := by
  intro s addr v herr haddr
  obtain ⟨t, hexec, hframe, hread⟩ := exec_wrsrc_of_lt (pixelOfHostCell v) herr haddr
  have hcell : readSrc t addr.toNat = pixelOfHostCell v := by rw [hread, if_pos rfl]
  refine ⟨t, hexec, hframe, ?_, ?_, fun a ha => by rw [hread, if_neg ha]⟩
  · rw [hcell, pixelOfHostCell_toNat]
  · rw [hostCellOfPixel_toNat, hcell, pixelOfHostCell_toNat]

end Sys2Proof.Proofs
end

section
/-! The statements of 30_encoding.md: decoder and encoder are inverse to each other (R90 to R94), the legal words are those that
decode to a well-formed command (R101), and what an illegal word and REBUILD do (R101, R252, R105). R101 speaks of a word's
fields as numbers, so words are compared as numbers here. -/

namespace Sys2Proof.Proofs

open Machine Laws

variable {c : Config} {cw : Word} {i j : Instr} {s : State} {rest : List HostAction} {lo w : Nat}

/-! Fields as numbers (R90, R91) -/

theorem field_toNat (cw : Word) (lo w : Nat) : (field cw lo w).toNat = cw.toNat / 2 ^ lo % 2 ^ w := by
  rw [field, BitVec.extractLsb'_toNat, Nat.shiftRight_eq_div_pow]

theorem field_eq_iff {v : BitVec w} : field cw lo w = v ↔ cw.toNat / 2 ^ lo % 2 ^ w = v.toNat := by
  rw [← BitVec.toNat_inj, field_toNat]

theorem opcodeOf_lt (cw : Word) : opcodeOf cw < 2 ^ 4 := Nat.div_lt_of_lt_mul cw.isLt

theorem field_opcode_toNat (cw : Word) : (field cw 28 4).toNat = opcodeOf cw := by
  rw [field_toNat, Nat.mod_eq_of_lt (opcodeOf_lt cw)]

/-- A row whose format has a "must be 0" field decodes to that row's command exactly when the field is 0 (R91). -/
theorem ifZero_eq_ok_iff : ifZero cw lo w j = .ok i ↔ cw.toNat / 2 ^ lo % 2 ^ w = 0 ∧ j = i := by
  have hfield : field cw lo w = 0 ↔ cw.toNat / 2 ^ lo % 2 ^ w = 0 := by simp [field_eq_iff]
  rw [← hfield, ifZero]
  split
  case isTrue hzero => simp only [Except.ok.injEq, hzero, true_and]
  case isFalse hne => exact iff_of_false nofun fun h => hne h.1

theorem append_toNat {v w : Nat} (a : BitVec v) (b : BitVec w) : (a ++ b).toNat = a.toNat * 2 ^ w + b.toNat := by
  rw [BitVec.toNat_append, ← Nat.shiftLeft_add_eq_or_of_lt b.isLt, Nat.shiftLeft_eq]

/-! The word of a command as a number (R91, R92) -/

/-- Column `op` of the table of R92. -/
def opcode : Instr → Nat
  | .nop => 0x0
  | .modulate => 0x1
  | .template => 0x2
  | .burstgen => 0x3
  | .sample _ _ => 0x4
  | .invalidate => 0x5
  | .clrbuf => 0x6
  | .wrreg _ _ => 0x7
  | .rdreg _ => 0x8
  | .wrsrc _ _ => 0x9
  | .rdsig _ => 0xA
  | .rdsrc _ => 0xB

/-- Bits [27:0] of a command's word: each operand at the place of its field, 0 elsewhere (R91). -/
def operandBits : Instr → Nat
  | .nop | .modulate | .template | .burstgen | .invalidate | .clrbuf => 0
  | .sample pix phase => phase.toNat * 2 ^ 9 + pix.toNat
  | .wrreg reg val => reg.toNat * 2 ^ 23 + val.toNat
  | .rdreg reg => reg.toNat * 2 ^ 23
  | .wrsrc addr pix => addr.toNat * 2 ^ 9 + pix.toNat
  | .rdsig addr | .rdsrc addr => addr.toNat

theorem operandBits_lt (i : Instr) : operandBits i < 2 ^ 28 := by
  cases i with
  | nop | modulate | template | burstgen | invalidate | clrbuf => decide
  | rdsig addr | rdsrc addr => exact addr.isLt
  | sample | wrreg | rdreg | wrsrc =>
    simp only [operandBits]
    omega

theorem encode_toNat (i : Instr) : (encode i).toNat = opcode i * 2 ^ 28 + operandBits i := by
  cases i with
  | nop | modulate | template | burstgen | invalidate | clrbuf => rfl
  | rdsig | rdsrc => exact append_toNat ..
  | sample | wrreg | rdreg | wrsrc =>
    simp only [encode, append_toNat, opcode, operandBits, BitVec.toNat_ofNat]
    omega

theorem opcodeOf_encode (i : Instr) : opcodeOf (encode i) = opcode i := by
  have hlow := operandBits_lt i
  rw [opcodeOf, encode_toNat]
  omega

/-! Decoding and encoding -/

/-- The opcode selects the row of the command, and then each field of the word is the operand put there. -/
theorem decodeWord_encode (i : Instr) : decodeWord (encode i) = .ok i := by
  have hop := opcodeOf_encode i
  cases i with
  | nop | modulate | template | burstgen | invalidate | clrbuf => decide
  | sample | wrreg | rdreg | wrsrc | rdsig | rdsrc =>
    simp only [opcode] at hop
    simp only [decodeWord, field_opcode_toNat, hop, ifZero_eq_ok_iff, Except.ok.injEq, Instr.sample.injEq,
      Instr.wrreg.injEq, Instr.rdreg.injEq, Instr.wrsrc.injEq, Instr.rdsig.injEq, Instr.rdsrc.injEq, field_eq_iff,
      encode_toNat, opcode, operandBits]
    omega

/-- In every row the opcode, the operand fields and the "must be 0" fields make up the whole word. -/
theorem toNat_of_decodeWord (h : decodeWord cw = .ok i) :
    cw.toNat = opcodeOf cw * 2 ^ 28 + operandBits i ∧ opcodeOf cw = opcode i := by
  unfold decodeWord at h
  rw [field_opcode_toNat] at h
  split at h
  case h_1 hop | h_2 hop | h_3 hop | h_4 hop | h_5 hop | h_6 hop | h_7 hop | h_8 hop | h_9 hop | h_10 hop =>
    obtain ⟨hzero, rfl⟩ := ifZero_eq_ok_iff.1 h
    refine ⟨?_, hop⟩
    simp only [operandBits, field_toNat, pow_zero, Nat.div_one, opcodeOf] at hzero ⊢
    omega
  case h_11 hop | h_12 hop =>
    cases h
    refine ⟨?_, hop⟩
    simp only [operandBits, field_toNat, pow_zero, Nat.div_one, opcodeOf]
    omega
  case h_13 => cases h

theorem encode_of_decodeWord (h : decodeWord cw = .ok i) : encode i = cw := by
  obtain ⟨hword, hop⟩ := toNat_of_decodeWord h
  exact BitVec.eq_of_toNat_eq (by rw [encode_toNat, hword, hop])

theorem wordOfBytes_of_fields (cw : Word) :
    wordOfBytes (field cw 0 8) (field cw 8 8) (field cw 16 8) (field cw 24 8) = cw := by
  apply BitVec.eq_of_toNat_eq
  simp only [wordOfBytes, append_toNat, field_toNat]
  omega

/-- The bytes of a word before any others decode as the word does (R63). -/
theorem decodeBytes_encodeBytes (i : Instr) (rest : List Byte) : decodeBytes (encodeBytes i ++ rest) = .ok (i, rest) := by
  simp only [encodeBytes, bytesOfWord, List.cons_append, List.nil_append, decodeBytes, wordOfBytes_of_fields,
    decodeWord_encode]

/-- Settles O2: row by row for words, and for bytes because the four bytes of a word make it up again. -/
theorem decodingAnEncodedCommandGivesItBack : Obligations.DecodingAnEncodedCommandGivesItBack :=
  ⟨decodeWord_encode, decodeBytes_encodeBytes⟩

/-- Settles O4: the word and the encoding of what it decodes to are the same number. -/
theorem everyCommandHasOneWord : Obligations.EveryCommandHasOneWord := fun _ _ => encode_of_decodeWord

/-! The legal words (R101) -/

theorem ifZero_decodes_wellFormed_iff : (∃ i, ifZero cw lo w j = .ok i ∧ i.wellFormed c = true) ↔
    cw.toNat / 2 ^ lo % 2 ^ w = 0 ∧ j.wellFormed c = true := by
  simp only [ifZero_eq_ok_iff, and_assoc, exists_and_left, exists_eq_left']

/-- Settles O5: for each opcode, the items of R101 that speak of it are its "must be 0" field and the checks of its row. -/
theorem legalWordsAreThoseThatDecodeWellFormed : Obligations.LegalWordsAreThoseThatDecodeWellFormed := by
  intro c cw
  unfold decodeWord
  rw [field_opcode_toNat]
  split
  case h_1 hop | h_2 hop | h_3 hop | h_4 hop | h_5 hop | h_6 hop | h_7 hop | h_8 hop | h_9 hop | h_10 hop =>
    rw [ifZero_decodes_wellFormed_iff]
    simp [illegalWord, hop, Instr.wellFormed, wrregLegal, rdregLegal, srcIndexLegal, field_toNat, registerOf]
  case h_11 hop | h_12 hop =>
    simp [illegalWord, hop, Instr.wellFormed, sigIndexLegal, srcIndexLegal, field_toNat]
  case h_13 =>
    simp only [imp_false] at *
    have hreserved : 12 ≤ opcodeOf cw := by omega
    simp [illegalWord, hreserved]

/-! Steps that run one command word (R101, R105, R220, R252) -/

/-- A command word presented in `IDLE` is run, and its response returned (R291, R292). -/
theorem step_command (hadm : s.cfg.admitted = true) (hseq : s.seq = .idle) (hpend : s.pending = .command cw :: rest) :
    step s = withResponse (runWord cw { s with pending := rest }) := by
  rw [step_of_idle hadm hseq, hostTurn, hpend]

/-- An illegal word raises `IllegalCommand`, whether the decoder or the command's row refuses it (R101, R252). -/
theorem runWord_of_illegalWord (h : illegalWord s.cfg cw) : runWord cw s = .next (raise .illegalCommand s) := by
  unfold runWord
  split
  case h_1 i hdec =>
    have hwf : i.wellFormed s.cfg = false :=
      Bool.eq_false_iff.2 fun hlegal => (legalWordsAreThoseThatDecodeWellFormed s.cfg cw).2 ⟨i, hdec, hlegal⟩ h
    rw [exec_eq_accept, accept_illegal hwf]
  case h_2 => rfl

/-- Settles O9: the step runs the word, which raises; the raise leaves the sequencer in the `IDLE` it was in. -/
theorem illegalWordRaisesAndDoesNothingElse : Obligations.IllegalWordRaisesAndDoesNothingElse := by
  intro s cw rest hadm hseq hpend hillegal
  have hrun : runWord cw { s with pending := rest } = _ := runWord_of_illegalWord hillegal
  rw [step_command hadm hseq hpend, hrun]
  simp only [withResponse, returnResponse, raise, errcodeAfterRaise, codeOf, hseq]

/-- A well-formed command presented in `IDLE` without a failure runs its own rule, and its response is returned. -/
theorem step_encode (hadm : s.cfg.admitted = true) (hseq : s.seq = .idle) (herr : s.err = false)
    (hpend : s.pending = .command (encode i) :: rest) (hwf : i.wellFormed s.cfg = true) :
    step s = .next (returnResponse (ruleOf i (start (operationOf i) { s with pending := rest }))) := by
  rw [step_command hadm hseq hpend, runWord, decodeWord_encode]
  exact congrArg withResponse (exec_runs (s := { s with pending := rest }) hwf (.inl herr))

/-- CLRBUF leaves every cell of the buffer 0, and the machine ready for the host's next action (R225). -/
theorem step_clrbuf (hadm : s.cfg.admitted = true) (hseq : s.seq = .idle) (herr : s.err = false)
    (hpend : s.pending = .command (encode .clrbuf) :: rest) :
    ∃ t, step s = .next t ∧ t.cfg = s.cfg ∧ t.seq = .idle ∧ t.err = false ∧ t.pending = rest ∧
      ∀ a, a < s.cfg.vres * s.cfg.hres → readSig t a = 0 := by
  refine ⟨_, step_encode hadm hseq herr hpend rfl, rfl, rfl, herr, rfl, fun a ha => readSig_of_find ?_⟩
  simp [ruleOf, returnResponse, find_fill, ha]

/-- INVALIDATE clears `FI` and leaves the buffer as it is (R224). -/
theorem step_invalidate (hadm : s.cfg.admitted = true) (hseq : s.seq = .idle) (herr : s.err = false)
    (hpend : s.pending = .command (encode .invalidate) :: rest) :
    ∃ t, step s = .next t ∧ t.fi = false ∧ t.pending = rest ∧ ∀ a, readSig t a = readSig s a :=
  ⟨_, step_encode hadm hseq herr hpend rfl, rfl, rfl, fun _ => rfl⟩

theorem core_run_succ {t : State} (h : step s = .next t) (k : Nat) :
    Sys2Proof.core.run (k + 1) s = Sys2Proof.core.run k t := by
  have hcore : Sys2Proof.core.step s = .next t := h
  simp only [Host.Core.run, hcore]

/-- Settles O58: CLRBUF's step leaves a buffer of zeros and INVALIDATE pending, whose step clears `FI` and keeps the buffer. -/
theorem rebuildClearsBufferAndFlag : Obligations.RebuildClearsBufferAndFlag := by
  intro s hadm hseq herr hpend
  obtain ⟨u, hclear, hcfg, huseq, huerr, hupend, hzero⟩ := step_clrbuf hadm hseq herr hpend
  obtain ⟨t, hinvalidate, hfi, htpend, hkeep⟩ := step_invalidate (hcfg ▸ hadm) huseq huerr hupend
  have hrun : Sys2Proof.core.run 2 s = .next t := (core_run_succ hclear 1).trans (core_run_succ hinvalidate 0)
  exact ⟨t, hrun, hfi, htpend, fun a ha => (hkeep a).trans (hzero a ha)⟩

end Sys2Proof.Proofs
end

section
/-! The statements of 40_field_template.md: TEMPLATE on either side of `FI` (R121, R128), and the pattern of each class of line
(R122 to R127). -/

namespace Sys2Proof.Proofs

open Machine Laws

variable {c : Config} {s : State} {n t : Nat}

/-! The command TEMPLATE (R121) -/

theorem ensureTemplate_with_seq (s : State) (q : Machine.Seq) :
    ensureTemplate { s with seq := q } = { ensureTemplate s with seq := q } := by
  unfold ensureTemplate
  split <;> rfl

theorem exec_template (herr : s.err = false) :
    exec .template s = .next { ensureTemplate s with resp := 0, seq := .idle } := by
  rw [exec_runs rfl (.inl herr), start, ruleOf, ensureTemplate_with_seq]
  rfl

theorem exec_template_of_fi (herr : s.err = false) (hfi : s.fi = true) :
    exec .template s = .next { s with resp := 0, seq := .idle } := by
  rw [exec_template herr, ensureTemplate_of_fi hfi]

theorem exec_template_of_not_fi (herr : s.err = false) (hfi : s.fi = false) :
    exec .template s = .next { s with sig := buildTemplate s.cfg s.sig, fi := true, resp := 0, seq := .idle } := by
  rw [exec_template herr, ensureTemplate_of_not_fi hfi]

/-- A cell of a built buffer reads its line's pattern, whatever buffer the build began with (R121, R122). -/
theorem readSig_of_built {m : Memory 8} (hsig : s.sig = buildTemplate c m) (hn : n < c.vres) (ht : t < c.hres) :
    readSig s (sigCell c n t) = toSample (templateLevel c n t) :=
  readSig_of_find (hsig ▸ find_buildTemplate_cell hn ht)

/-- Settles O32: the two sides of the guard; a build writes every cell of the buffer and no index past it. -/
theorem templateBuildsOnceUnderItsFlag : Obligations.TemplateBuildsOnceUnderItsFlag := by
  refine ⟨by decide, fun s herr hfi => exec_template_of_fi herr hfi, fun s herr hfi => ?_⟩
  refine ⟨_, exec_template_of_not_fi herr hfi, rfl, fun n k hn hk => ?_, fun a ha => ?_⟩
  · exact readSig_of_built rfl hn hk
  · exact readSig_congr a rfl (find_buildTemplate_outside ha)

/-- Settles O33: the first TEMPLATE leaves `FI` set, so the second builds nothing; and what a build leaves in a cell is the
pattern's value, in which the buffer before it does not occur. -/
theorem templateIsIdempotent : Obligations.TemplateIsIdempotent := by
  refine ⟨fun s herr => ⟨_, exec_template herr, ?_⟩, fun s m herr hfi => ?_⟩
  · exact exec_template_of_fi ((ensureTemplate_err s).trans herr) (ensureTemplate_fi s)
  · refine ⟨_, _, exec_template_of_not_fi herr hfi, exec_template_of_not_fi herr hfi, fun a ha => ?_⟩
    obtain ⟨n, k, hn, hk, rfl⟩ := sigCell_surj ha
    exact (readSig_of_built rfl hn hk).trans (readSig_of_built rfl hn hk).symm

/-! The pattern (R122 to R127) -/

theorem isVsLine_iff : c.isVsLine n ↔ c.vsFirst ≤ n ∧ n ≤ c.vsFirst + 2 := and_congr_right' Nat.lt_succ_iff

theorem templateLevel_of_eqLine (heq : n ∈ c.eqLines) : templateLevel c n t = equalizingLevel c t := if_pos heq

theorem templateLevel_of_vsLine (heq : n ∉ c.eqLines) (hvs : c.isVsLine n) :
    templateLevel c n t = verticalSyncLevel c t := (if_neg heq).trans (if_pos hvs)

theorem templateLevel_of_ordinaryLine (heq : n ∉ c.eqLines) (hvs : ¬ c.isVsLine n) :
    templateLevel c n t = ordinaryLevel c t := (if_neg heq).trans (if_neg hvs)

/-- Settles O31: the class of the line selects its pattern function, which is the one the rule of that class writes out. -/
theorem templatePatternByRegion : Obligations.TemplatePatternByRegion := by
  intro c n t
  refine ⟨fun heq => ?equalizing, fun heq hvs => ?verticalSync, fun heq hvs => ?ordinary⟩
  case equalizing => exact templateLevel_of_eqLine heq
  case verticalSync => exact templateLevel_of_vsLine heq (isVsLine_iff.2 hvs)
  case ordinary => exact templateLevel_of_ordinaryLine heq (mt isVsLine_iff.1 hvs)

end Sys2Proof.Proofs
end

section
/-! The statements of 41_amplitude_sampler.md: SAMPLE answers the table entry its flags select (R140 to R147), and the
hues that do not follow the phase (R142, R145, R150). -/

namespace Sys2Proof.Proofs

open Machine Laws

variable {c : Config} {p : Int} {phase : Nat} {s : State}

/-! The fields of a pixel code (R96, R141) -/

theorem hueOf_cast (p : Int) : (hueOf p : Int) = p % 16 := Int.toNat_of_nonneg (Int.emod_nonneg p (by decide))

theorem hueOf_pixelValue (pix : PixelCode) : hueOf (pixelValue pix) = pix.toNat % 16 :=
  Int.ofNat.inj (hueOf_cast _)

theorem tierOf_pixelValue (pix : PixelCode) : (tierOf (pixelValue pix) : Nat) = pix.toNat / 16 % 4 := by
  simp only [tierOf, pixelValue, Fin.val_ofNat]
  omega

theorem emphOf_pixelValue (pix : PixelCode) : (emphOf (pixelValue pix)).toNat = pix.toNat / 64 := by
  have hlt : pix.toNat / 64 < 2 ^ 3 := Nat.div_lt_of_lt_mul pix.isLt
  simp only [emphOf, pixelValue, BitVec.toNat_ofInt]
  omega

/-! The flags and the table index (R143 to R146) -/

theorem luminanceActive_of_white (h : hueOf p = c.hueWhite) : luminanceActive c p phase = true := if_pos h

theorem luminanceActive_of_black (h : hueOf p = c.hueBlack) (hne : c.hueWhite ≠ c.hueBlack) :
    luminanceActive c p phase = false :=
  (if_neg (h ▸ hne.symm)).trans (if_pos h)

theorem luminanceActive_iff : luminanceActive c p phase = true ↔
    hueOf p = c.hueWhite ∨ (hueOf p ≠ c.hueBlack ∧ (hueOf p + phase) % 12 < 6) := by
  unfold luminanceActive
  split
  case isTrue hwhite => simp [hwhite]
  case isFalse hwhite =>
    split
    case isTrue hblack => exact iff_of_false nofun (not_or.2 ⟨hwhite, fun h => h.1 hblack⟩)
    case isFalse hblack => simp [hwhite, hblack, halfCycleActive]

/-- The mask entry of a phase's sextant, met by the emphasis bits as numbers (R144). -/
theorem emphasisActive_iff {mask : BitVec 3} (hmask : c.emphMask.toList[phase / 2 % 6]? = some mask) :
    emphasisActive c p phase = true ↔ (emphOf p).toNat &&& mask.toNat ≠ 0 := by
  have hentry : c.emphMask[sextantOf phase] = mask := by
    obtain ⟨_, hget⟩ := List.getElem?_eq_some_iff.1 hmask
    exact hget
  rw [emphasisActive, hentry, bne_iff_ne, ne_eq, ← BitVec.toNat_inj, BitVec.toNat_and]
  rfl

theorem amplitudeIndex_val (l e : Bool) (tier : Fin 4) :
    (amplitudeIndex l e tier : Nat) = 8 * l.toNat + 4 * e.toNat + tier := by
  have hl := l.toNat_le
  have he := e.toNat_le
  exact Nat.mod_eq_of_lt (by omega)

/-! The function `sample` (R147) -/

theorem sample_of_reserved (h : 14 ≤ hueOf p) : sample c p phase = 0 := if_pos h

theorem sample_of_lt (h : hueOf p < 14) : c.ireTable.toList[8 * (luminanceActive c p phase).toNat +
    4 * (emphasisActive c p phase).toNat + tierOf p]? = some (sample c p phase) := by
  rw [← amplitudeIndex_val, sample, if_neg h.not_ge]
  exact Vector.getElem?_toList.trans (Vector.getElem?_eq_getElem _)

/-! The command SAMPLE (R140) -/

theorem exec_sample (pix : PixelCode) (phase : BitVec 16) (herr : s.err = false) : exec (.sample pix phase) s =
    .next { s with resp := toInt32 (sample s.cfg (pixelValue pix) phase.toNat), seq := .idle } :=
  exec_runs rfl (.inl herr)

/-- Settles O28: the amplitude is `sample`'s, and flags that meet the rule's conditions are the two it computes. -/
theorem sampleAnswersTheAmplitude : Obligations.SampleAnswersTheAmplitude := by
  refine ⟨fun pix phase => ?word, fun s pix phase herr => ⟨_, exec_sample pix phase herr, ?reserved, ?table⟩⟩
  case word =>
    rw [encode_toNat, opcode, operandBits]
    omega
  case reserved => exact fun hhue => sample_of_reserved (hueOf_pixelValue pix ▸ hhue)
  case table =>
    intro hhue l e mask hmask hl he
    have hlum : luminanceActive s.cfg (pixelValue pix) phase.toNat = l :=
      Bool.eq_iff_iff.2 (luminanceActive_iff.trans (by rw [hl, hueOf_pixelValue]))
    have hemph : emphasisActive s.cfg (pixelValue pix) phase.toNat = e :=
      Bool.eq_iff_iff.2 ((emphasisActive_iff hmask).trans (by rw [he, emphOf_pixelValue]))
    rw [← hlum, ← hemph, ← tierOf_pixelValue]
    exact sample_of_lt (hueOf_pixelValue pix ▸ hhue)

/-- Settles O29: the reserved hues return before the phase is read, and the special hues before the half-cycle is. -/
theorem reservedHuesDoNotFollowThePhase : Obligations.ReservedHuesDoNotFollowThePhase := by
  refine ⟨fun c p phase h => ?reserved, fun c p phase h => ?white, fun c p phase h hne => ?black⟩ <;>
    rw [← hueOf_cast] at h
  case reserved => exact sample_of_reserved (Int.ofNat_le.1 h)
  case white => exact luminanceActive_of_white (Int.ofNat.inj h)
  case black => exact luminanceActive_of_black (Int.ofNat.inj h) hne

end Sys2Proof.Proofs
end

section
/-! The statements of 42_burst_phase.md: BURSTGEN fills both tables with the reduced sines of the burst angles (R161 to R167), and
the burst windows MODULATE writes follow the residues of line and sample alone (R172). -/

namespace Sys2Proof.Proofs

open Machine Laws

variable {c : Config} {s : State} {y y' n n' k k' : Nat}

/-! The bound of the sine (R170, R171) and of the table entries -/

theorem sinTri_bounds (u : Int) : -2 ^ 15 ≤ sinTri u ∧ sinTri u ≤ 2 ^ 15 := by
  simp only [sinTri]
  split_ifs <;> omega

/-- An external primitive is clamped to the bound; the triangle keeps it of itself. -/
theorem sine_bounds (c : Config) (u : Int) : -2 ^ 15 ≤ sine c u ∧ sine c u ≤ 2 ^ 15 := by
  unfold sine
  split
  case h_1 => exact ⟨le_min (le_max_right ..) (by decide), min_le_right ..⟩
  case h_2 => exact sinTri_bounds u

/-- A shift right keeps a bound on the magnitude, though it rounds toward minus infinity (R9). -/
theorem asr_bounds {v b : Int} (h : -b ≤ v ∧ v ≤ b) (k : Nat) : -b ≤ asr v k ∧ asr v k ≤ b := by
  have hpow : (1 : Int) ≤ 2 ^ k := one_le_pow₀ one_le_two
  constructor
  · exact (Int.le_ediv_iff_mul_le (by omega)).2 (by nlinarith)
  · exact Int.ediv_le_of_le_mul (by omega) (by nlinarith)

theorem burstSine_bounds (c : Config) (hue : Int) (g : Group) (p : Position) :
    -2 ^ 15 ≤ burstSine c hue g p ∧ burstSine c hue g p ≤ 2 ^ 15 :=
  asr_bounds (sine_bounds ..) _

/-- The table entry holds the reduced sine exactly: no bit is lost in the `int32` (R34). -/
theorem tableEntry_burst_toInt (c : Config) (hue : Int) (g : Group) (p : Position) :
    (tableEntry (tableOf (burstSine c hue)) g p).toInt = burstSine c hue g p := by
  obtain ⟨hlo, hhi⟩ := burstSine_bounds c hue g p
  rw [tableEntry_tableOf, toInt_toInt32 (by omega)]

/-! The burst angle (R162, R167) and the command BURSTGEN (R161) -/

theorem swingPositive_iff : swingPositive c n = true ↔ (n % 2 = 0) = (c.swingEvenPositive = true) := by
  rw [swingPositive, beq_iff_eq, Bool.eq_iff_iff, beq_iff_eq, eq_iff_iff]

theorem burstAngle_eq (c : Config) (g : Group) (p : Position) (hue : Int) : burstAngle c g p hue =
    60 * (g : Nat) + hue + 90 * (p : Nat) + 135
      + if ((g : Nat) % 2 = 0) = (c.swingEvenPositive = true) then 60 else -60 := by
  simp only [burstAngle, swing, swingPositive_iff]
  omega

theorem exec_burstgen (herr : s.err = false) : exec .burstgen s = .next { generateBurst s with resp := 0, seq := .idle } :=
  exec_runs rfl (.inl herr)

/-- Settles O34: the two tables are the one table of reduced sines, whose entries fit their registers. -/
theorem burstgenFillsBothTables : Obligations.BurstgenFillsBothTables := by
  refine ⟨by decide, fun s herr => ⟨_, exec_burstgen herr, rfl, fun g p => ?_⟩⟩
  rw [← burstAngle_eq]
  exact tableEntry_burst_toInt s.cfg s.hue.toInt g p

/-! The burst windows MODULATE writes (R172, R188) -/

theorem exec_modulate (herr : s.err = false) (hfits : imageFits s) :
    exec .modulate s = .next (complete 0 (modulateField (start .modulate s))) := by
  rw [exec_runs rfl (.inl herr)]
  exact congrArg _ (ruleOf_modulate_of_accepted (imageAccepted_iff.2 hfits))

/-- A line writes its burst samples in the burst window: the active video begins after it (R7). -/
theorem lineSample_of_burst (hadm : s.cfg.admitted) (hlo : s.cfg.cbBeg ≤ k) (hhi : k < burstEnd s.cfg) :
    lineSample s y k = some (toSample (burstAt s (s.cfg.top + y) k)) := by
  obtain ⟨-, -, ⟨-, hdisjoint⟩, -⟩ := (admitted_iff _).1 hadm
  have hbefore : k < s.cfg.avBeg := hhi.trans_le hdisjoint
  rw [lineSample, if_neg (fun h => hbefore.not_ge h.1), if_pos ⟨hlo, hhi⟩]

theorem readSig_modulateLines_burst (hadm : s.cfg.admitted) (hy : y < s.cfg.lines) (hlo : s.cfg.cbBeg ≤ k)
    (hhi : k < burstEnd s.cfg) :
    readSig (modulateLines s) (sigCell s.cfg (s.cfg.top + y) k) = toSample (burstAt s (s.cfg.top + y) k) := by
  refine readSig_of_find ?_
  rw [modulateLines_sig, find_lines_cell hadm (hhi.trans_le (burstEnd_le hadm)), if_pos (by omega),
    Nat.add_sub_cancel_left, lineSample_of_burst hadm hlo hhi, Option.some_or]

/-- The burst window of a modulated line after MODULATE, in terms of the table that MODULATE leaves. -/
theorem readSig_modulateField_burst (hadm : s.cfg.admitted) (hy : y < s.cfg.lines) (hlo : s.cfg.cbBeg ≤ k)
    (hhi : k < burstEnd s.cfg) :
    readSig (modulateField s) (sigCell s.cfg (s.cfg.top + y) k) =
      toSample (burstAt (modulateField s) (s.cfg.top + y) k) := by
  have hlines := readSig_modulateLines_burst (s := generateBurst (ensureTemplate s)) (y := y) (k := k)
  simp only [generateBurst_cfg, ensureTemplate_cfg] at hlines
  exact hlines hadm hy hlo hhi

/-- A burst sample reads its line mod 6 and its sample mod 4 only. -/
theorem burstAt_congr (s : State) (hn : n % 6 = n' % 6) (hk : k % 4 = k' % 4) : burstAt s n k = burstAt s n' k' := by
  have hgroup : groupOf n = groupOf n' := Fin.ext hn
  have hposition : positionOf k = positionOf k' := Fin.ext hk
  rw [burstAt, burstAt, hgroup, hposition]

/-- Cells of two burst windows whose residues agree hold the same sample of the one table MODULATE leaves (R172). -/
theorem readSig_modulateField_burst_congr (hadm : s.cfg.admitted) (hy : y < s.cfg.lines) (hy' : y' < s.cfg.lines)
    (hline : (s.cfg.top + y) % 6 = (s.cfg.top + y') % 6) (hlo : s.cfg.cbBeg ≤ k) (hhi : k < burstEnd s.cfg)
    (hlo' : s.cfg.cbBeg ≤ k') (hhi' : k' < burstEnd s.cfg) (hsample : k % 4 = k' % 4) :
    readSig (modulateField s) (sigCell s.cfg (s.cfg.top + y) k) =
      readSig (modulateField s) (sigCell s.cfg (s.cfg.top + y') k') := by
  rw [readSig_modulateField_burst hadm hy hlo hhi, readSig_modulateField_burst hadm hy' hlo' hhi',
    burstAt_congr _ hline hsample]

/-- Settles O44: the lines leave 6 in `CC_PERIOD`, and the end of the command touches no cell. -/
theorem burstDependsOnResiduesOnly : Obligations.BurstDependsOnResiduesOnly := by
  intro s hadm herr hfits
  refine ⟨_, exec_modulate herr hfits, rfl, fun y y' k k' hy hy' hline hlo hhi hlo' hhi' hsample => ?_⟩
  exact readSig_modulateField_burst_congr (s := start .modulate s) hadm hy hy' hline hlo hhi hlo' hhi' hsample

end Sys2Proof.Proofs
end

section
/-! The statements of 43_scanline_modulator.md: MODULATE fails on three image sizes only (R182) and otherwise leaves its three windows
on every modulated line (R186, R188, R193), the written burst in the cache (R189) and the template elsewhere (R183); and what of its
inputs reaches which of these (R196, R197). -/

namespace Sys2Proof.Proofs

open Machine Laws

variable {c : Config} {s : State} {y x n k : Nat}

/-! Loops and fills (R11) -/

/-- What one pass establishes and every pass keeps holds after the loop (R11). -/
theorem loop_establishes {σ : Type} {body : Nat → σ → σ} {P : σ → Prop} {lo hi j : Nat} (hlo : lo ≤ j) (hhi : j < hi)
    (hset : ∀ a, P (body j a)) (hkeep : ∀ i a, P a → P (body i a)) (a : σ) : P (loop lo hi body a) := by
  refine loop_induction (P := fun i b => j < i → P b) (hlo.trans hhi.le) (fun h => absurd h hlo.not_gt) ?_ hhi
  intro i b _ _ ih hji
  rcases Nat.lt_succ_iff_lt_or_eq.1 hji with hlt | rfl
  · exact hkeep i b (ih hlt)
  · exact hset b

theorem loopFrom_congr {σ : Type} {f g : Nat → σ → σ} {n lo : Nat} (h : ∀ i, lo ≤ i → i < lo + n → f i = g i) (a : σ) :
    loopFrom f n lo a = loopFrom g n lo a := by
  induction n generalizing lo a with
  | zero => rfl
  | succ n ih =>
    rw [loopFrom, loopFrom, h lo (Nat.le_refl _) (by omega)]
    exact ih (fun i hlo hhi => h i (by omega) (by omega)) _

/-- Loops whose passes agree give the same result (R11). -/
theorem loop_congr {σ : Type} {f g : Nat → σ → σ} {lo hi : Nat} (h : ∀ i, lo ≤ i → i < hi → f i = g i) (a : σ) :
    loop lo hi f a = loop lo hi g a :=
  loopFrom_congr (fun i hlo hhi => h i hlo (by omega)) a

/-- A fill reads its values inside the filled range only. -/
theorem fillLine_congr {lo hi : Nat} {f g : Nat → Int} (h : ∀ t, lo ≤ t → t < hi → f t = g t) (m : Memory 8) :
    fillLine c n lo hi f m = fillLine c n lo hi g m := by
  have hrun (base : Nat) : Memory.run base (hi - lo) (fun i => toSample (f (lo + i))) =
      Memory.run base (hi - lo) (fun i => toSample (g (lo + i))) := by
    refine List.map_congr_left fun i hi => congrArg (fun v => (base + i, toSample v)) (h (lo + i) (Nat.le_add_right ..) ?_)
    have := List.mem_range.1 hi
    omega
  rw [fillLine, fillLine, Memory.fill, hrun]
  rfl

/-! The field as its lines, from the state they start in -/

theorem ensureTemplate_eq (s : State) : ensureTemplate s =
    { s with sig := if s.fi then s.sig else buildTemplate s.cfg s.sig, fi := true } := by
  cases hfi : s.fi with
  | true => rw [ensureTemplate_of_fi hfi, if_pos rfl, ← hfi]
  | false => rw [ensureTemplate_of_not_fi hfi, if_neg nofun]

/-- The state the lines start from (R183, R184): the template is there, and both tables are BURSTGEN's. -/
def lineStart (s : State) : State :=
  generateBurst { s with sig := if s.fi then s.sig else buildTemplate s.cfg s.sig, fi := true }

theorem modulateField_eq_lines (s : State) : modulateField s = modulateLines (lineStart s) := by
  rw [modulateField, ensureTemplate_eq, lineStart]

/-- What MODULATE changes once its arguments are accepted (R181, R195). -/
theorem modulateField_frame (s : State) : modulateField s = { s with
    sig := (modulateField s).sig, ccb := (modulateField s).ccb, ccf := (modulateField s).ccf,
    ccPeriod := 6, fi := true } := by
  rw [modulateField_eq_lines]
  rfl

theorem modulateField_cfg (s : State) : (modulateField s).cfg = s.cfg := (sameHostState_modulateField s).cfg

theorem modulateField_resetCount (s : State) : (modulateField s).resetCount = s.resetCount :=
  (sameHostState_modulateField s).resetCount

theorem modulateField_err (s : State) : (modulateField s).err = s.err := by rw [modulateField_frame]

theorem modulateField_fi (s : State) : (modulateField s).fi = true := by rw [modulateField_frame]

theorem modulateField_ccPeriod (s : State) : (modulateField s).ccPeriod = 6 := by rw [modulateField_frame]

theorem modulateField_ccb (s : State) : (modulateField s).ccb = (generateBurst s).ccb := by
  rw [modulateField_eq_lines]
  rfl

/-! The outcomes of the command MODULATE (R181, R182) -/

theorem exec_modulate_of_not_fits (herr : s.err = false) (hfits : ¬ imageFits s) :
    exec .modulate s = .next { s with err := true, errcode := 1, resp := 0, seq := .idle } := by
  have hrejected : imageAccepted (start .modulate s) = false := Bool.eq_false_iff.2 (mt imageAccepted_iff.1 hfits)
  rw [exec_runs rfl (.inl herr)]
  simp only [operationOf, ruleOf_modulate_of_rejected hrejected]
  simp [raise, start, errcodeAfterRaise, codeOf, herr]

/-- MODULATE reads neither the sequencer nor the response, so a started or ended command gives the same field. -/
theorem modulateField_start (op : Operation) (s : State) : modulateField (start op s) = start op (modulateField s) := by
  rw [modulateField_eq_lines, modulateField_eq_lines]
  rfl

theorem modulateField_complete (v : Word) (s : State) : modulateField (complete v s) = complete v (modulateField s) := by
  rw [modulateField_eq_lines, modulateField_eq_lines]
  rfl

/-- MODULATE of an image that fits, as the whole field followed by the end of the command. -/
theorem exec_modulate_of_fits (herr : s.err = false) (hfits : imageFits s) :
    exec .modulate s = .next (complete 0 (modulateField s)) := by
  rw [exec_modulate herr hfits, modulateField_start]
  rfl

/-- Settles O15: the argument check is the negation of the three sizes, and nothing after it raises. -/
theorem modulateFailsExactlyOnBadImageSizes : Obligations.ModulateFailsExactlyOnBadImageSizes := by
  refine ⟨fun s herr hsize => exec_modulate_of_not_fits herr (not_imageFits_iff.2 hsize), fun s herr hw hh hcap => ?_⟩
  exact ⟨_, exec_modulate_of_fits herr ⟨hw, hh, hcap⟩, (modulateField_err s).trans herr⟩

/-- Settles O36: each of the field's three parts writes only fields that the statement names. -/
theorem modulateCompletesAndSetsThePeriod : Obligations.ModulateCompletesAndSetsThePeriod :=
  fun s herr hfits => ⟨_, exec_modulate_of_fits herr hfits, congrArg (complete 0) (modulateField_frame s)⟩

/-! A cell of the buffer after MODULATE -/

/-- What a sample of a line holds after MODULATE: what its own line wrote there, or what the lines found (R74). -/
theorem find_modulateField_cell (hadm : s.cfg.admitted) (hk : k < s.cfg.hres) :
    Memory.find (modulateField s).sig (sigCell s.cfg n k) =
      if s.cfg.top ≤ n ∧ n < s.cfg.top + s.cfg.lines then
        (lineSample (lineStart s) (n - s.cfg.top) k).or (Memory.find (lineStart s).sig (sigCell s.cfg n k))
      else Memory.find (lineStart s).sig (sigCell s.cfg n k) := by
  rw [modulateField_eq_lines]
  exact find_lines_cell (s := lineStart s) hadm hk

theorem find_modulateField_outside (hadm : s.cfg.admitted) {a : Nat} (ha : s.cfg.vres * s.cfg.hres ≤ a) :
    Memory.find (modulateField s).sig a = Memory.find (lineStart s).sig a := by
  rw [modulateField_eq_lines]
  exact find_lines_outside (s := lineStart s) hadm ha

/-- A sample of a modulated line that its line writes. -/
theorem readSig_modulateField_of_lineSample (hadm : s.cfg.admitted) (hy : y < s.cfg.lines) (hk : k < s.cfg.hres)
    {v : Sample} (hsample : lineSample (lineStart s) y k = some v) :
    readSig (modulateField s) (sigCell s.cfg (s.cfg.top + y) k) = v := by
  refine readSig_of_find ?_
  rw [find_modulateField_cell hadm hk, if_pos (by omega), Nat.add_sub_cancel_left, hsample, Option.some_or]

/-! The cells MODULATE does not rewrite (R74, R183) -/

theorem lineStart_sig_of_fi (hfi : s.fi = true) : (lineStart s).sig = s.sig := if_pos hfi

theorem lineStart_sig_of_not_fi (hfi : s.fi = false) : (lineStart s).sig = buildTemplate s.cfg s.sig :=
  if_neg (ne_true_of_eq_false hfi)

/-- A line writes nothing outside its three windows. -/
theorem lineSample_eq_none (hadm : s.cfg.admitted) (hk : ¬ ((s.cfg.syncEnd ≤ k ∧ k < burstEnd s.cfg) ∨
    (s.cfg.avBeg ≤ k ∧ k < s.cfg.avBeg + s.cfg.avLen))) : lineSample s y k = none := by
  obtain ⟨-, ⟨-, hsync, -⟩, -⟩ := (admitted_iff _).1 hadm
  have hburst : s.cfg.cbBeg ≤ burstEnd s.cfg := Nat.le_add_right ..
  rw [lineSample, if_neg (by omega), if_neg (by omega), if_neg (by omega)]

theorem find_modulateField_of_not_rewritten (hadm : s.cfg.admitted) (hk : k < s.cfg.hres)
    (hkeep : ¬ rewritten s.cfg n k) :
    Memory.find (modulateField s).sig (sigCell s.cfg n k) = Memory.find (lineStart s).sig (sigCell s.cfg n k) := by
  rw [find_modulateField_cell hadm hk]
  split
  case isTrue hline =>
    have hnone := lineSample_eq_none (s := lineStart s) (y := n - s.cfg.top) hadm (not_and.1 hkeep hline)
    rw [hnone, Option.none_or]
  case isFalse => rfl

/-- Settles O37: outside the windows MODULATE leaves what the lines found, the old buffer or a fresh template. -/
theorem modulateKeepsTheTimingRegions : Obligations.ModulateKeepsTheTimingRegions := by
  intro s hadm herr hfits
  refine ⟨_, exec_modulate_of_fits herr hfits, fun n k hn hk hkeep => ?cell, fun a ha => ?outside⟩
  case cell =>
    have hfind := find_modulateField_of_not_rewritten hadm hk hkeep
    cases hfi : s.fi with
    | true =>
      rw [lineStart_sig_of_fi hfi] at hfind
      exact readSig_congr _ (modulateField_resetCount s) hfind
    | false =>
      rw [lineStart_sig_of_not_fi hfi, find_buildTemplate_cell hn hk] at hfind
      exact readSig_of_find hfind
  case outside =>
    have hfind := find_modulateField_outside hadm ha
    refine readSig_congr a (modulateField_resetCount s) (hfind.trans ?_)
    cases hfi : s.fi with
    | true => rw [lineStart_sig_of_fi hfi]
    | false => rw [lineStart_sig_of_not_fi hfi, find_buildTemplate_outside ha]

/-! The breezeway (R186) -/

theorem lineSample_of_breezeway (hadm : s.cfg.admitted) (hlo : s.cfg.syncEnd ≤ k) (hhi : k < s.cfg.cbBeg) :
    lineSample s y k = some (toSample s.cfg.syncLevel) := by
  obtain ⟨-, -, ⟨-, hdisjoint⟩, -⟩ := (admitted_iff _).1 hadm
  rw [lineSample, if_neg (by omega), if_neg (by omega), if_pos ⟨hlo, hhi⟩]

/-- Settles O38: the sync level of an admitted configuration fits a cell (R7). -/
theorem modulateFillsTheBreezeway : Obligations.ModulateFillsTheBreezeway := by
  intro s hadm herr hfits
  obtain ⟨-, -, -, -, -, -, ⟨hsync, -⟩, -⟩ := (admitted_iff _).1 hadm
  refine ⟨_, exec_modulate_of_fits herr hfits, fun y k hy hlo hhi => ?_⟩
  have hread := readSig_modulateField_of_lineSample hadm hy (hhi.trans_le (cbBeg_le hadm))
    (lineSample_of_breezeway (s := lineStart s) hadm hlo hhi)
  exact (congrArg BitVec.toInt hread).trans (toInt_toSample hsync)

/-! The burst window and the table (R184, R188) -/

theorem burstSample_range (c : Config) (entry : Int) : -128 ≤ burstSample c entry ∧ burstSample c entry ≤ 127 :=
  wrap8_range _

/-- The cell of a burst sample holds it exactly: a burst sample is already narrowed (R166). -/
theorem toInt_toSample_burstAt (s : State) (n k : Nat) : (toSample (burstAt s n k)).toInt = burstAt s n k :=
  toInt_toSample (burstSample_range ..)

/-- Settles O39: MODULATE leaves BURSTGEN's table, and the burst window holds that table's burst samples. -/
theorem modulateWritesTheBurstWindow : Obligations.ModulateWritesTheBurstWindow := by
  intro s hadm herr hfits
  refine ⟨_, _, exec_modulate_of_fits herr hfits, exec_burstgen herr, modulateField_ccb s, fun y k hy hlo hhi => ?_⟩
  have hread := readSig_modulateField_burst hadm hy hlo hhi
  refine (congrArg BitVec.toInt hread).trans ((toInt_toSample_burstAt ..).trans ?_)
  rw [burstAt, modulateField_cfg]
  rfl

/-! The cache (R189) -/

/-- The cache entry `[g][p]` that records the burst sample of the table entry `[g][p]` (R189). -/
def recordedBurst (s : State) (g : Group) (p : Position) : BitVec 32 :=
  toInt32 (shl (burstSample s.cfg (signed32 (tableEntry s.ccb g p))) 7)

/-- Writing sample `k` of line `n` into the cache records the burst of its own entry, and touches no other entry. -/
theorem tableEntry_write_burstAt (t : PhaseTable) (n k : Nat) (g : Group) (p : Position) :
    tableEntry (tableWrite t (groupOf n) (positionOf k) (toInt32 (shl (burstAt s n k) 7))) g p =
      if groupOf n = g ∧ positionOf k = p then recordedBurst s g p else tableEntry t g p := by
  rw [tableEntry_tableWrite]
  split
  case isTrue hentry =>
    obtain ⟨rfl, rfl⟩ := hentry
    rfl
  case isFalse => rfl

theorem lineCache_keeps {t : PhaseTable} {g : Group} {p : Position} (y : Nat)
    (h : tableEntry t g p = recordedBurst s g p) : tableEntry (lineCache s y t) g p = recordedBurst s g p :=
  loop_keeps (P := fun t => tableEntry t g p = recordedBurst s g p) _ _ h fun k t _ _ ih => by
    rw [tableEntry_write_burstAt, ih, ite_self]

/-- A line records the entries of its own group: its burst window has a sample for every position (R7). -/
theorem lineCache_records (hcycles : 1 ≤ s.cfg.cbCycles) (t : PhaseTable) (y : Nat) (p : Position) :
    tableEntry (lineCache s y t) (groupOf (s.cfg.top + y)) p = recordedBurst s (groupOf (s.cfg.top + y)) p := by
  obtain ⟨k, hlo, hhi, hp⟩ : ∃ k, s.cfg.cbBeg ≤ k ∧ k < burstEnd s.cfg ∧ positionOf k = p := by
    refine ⟨s.cfg.cbBeg + (p + 4 - s.cfg.cbBeg % 4) % 4, Nat.le_add_right .., ?_, Fin.ext ?_⟩
    · unfold burstEnd
      omega
    · rw [positionOf_val]
      omega
  refine loop_establishes (P := fun t => tableEntry t _ p = recordedBurst s _ p) hlo hhi (fun t => ?_) (fun k t ih => ?_) t
  · rw [tableEntry_write_burstAt, if_pos ⟨rfl, hp⟩]
  · rw [tableEntry_write_burstAt, ih, ite_self]

/-- The modulated lines are six or more, so some line records each group (R7). -/
theorem tableEntry_modulateLines_ccf (hadm : s.cfg.admitted) (g : Group) (p : Position) :
    tableEntry (modulateLines s).ccf g p = recordedBurst s g p := by
  obtain ⟨-, -, -, ⟨-, hlines, hcycles⟩, -⟩ := (admitted_iff _).1 hadm
  obtain ⟨y, hy, rfl⟩ : ∃ y, y < s.cfg.lines ∧ groupOf (s.cfg.top + y) = g := by
    refine ⟨(g + 6 - s.cfg.top % 6) % 6, by omega, Fin.ext ?_⟩
    rw [groupOf_val]
    omega
  exact loop_establishes (P := fun t => tableEntry t _ p = recordedBurst s _ p) (Nat.zero_le y) hy
    (fun t => lineCache_records hcycles t y p) (fun i _ => lineCache_keeps i) s.ccf

theorem tableEntry_modulateField_ccf (hadm : s.cfg.admitted) (g : Group) (p : Position) :
    tableEntry (modulateField s).ccf g p = recordedBurst (modulateField s) g p := by
  rw [modulateField_eq_lines]
  exact tableEntry_modulateLines_ccf (s := lineStart s) hadm g p

/-- A burst sample times 128 fits the `int32` entry. -/
theorem recordedBurst_toInt (s : State) (g : Group) (p : Position) :
    (recordedBurst s g p).toInt = 128 * burstSample s.cfg (signed32 (tableEntry s.ccb g p)) := by
  have hrange := burstSample_range s.cfg (signed32 (tableEntry s.ccb g p))
  rw [recordedBurst, shl, toInt_toInt32 (by omega), Int.mul_comm]
  rfl

/-- Settles O40: every entry is recorded by some line from the table that the same MODULATE leaves. -/
theorem modulateRecordsTheWrittenBurst : Obligations.ModulateRecordsTheWrittenBurst := by
  intro s hadm herr hfits
  refine ⟨_, exec_modulate_of_fits herr hfits, fun g p => ?_⟩
  have hentry := congrArg BitVec.toInt (tableEntry_modulateField_ccf hadm g p)
  rw [recordedBurst_toInt, modulateField_cfg] at hentry
  exact hentry

/-! The active video (R190 to R193) -/

theorem lineSample_of_active (hx : x < s.cfg.avLen) :
    lineSample s y (s.cfg.avBeg + x) = some (toSample (wrap8 (activeOutput s y x))) := by
  rw [lineSample, if_pos (by omega), Nat.add_sub_cancel_left]

theorem readSig_modulateField_active (hadm : s.cfg.admitted) (hy : y < s.cfg.lines) (hx : x < s.cfg.avLen) :
    readSig (modulateField s) (sigCell s.cfg (s.cfg.top + y) (s.cfg.avBeg + x)) =
      toSample (wrap8 (activeOutput s y x)) := by
  have hinside : s.cfg.avBeg + x < s.cfg.hres := (Nat.add_lt_add_left hx _).trans_le (activeEnd_le hadm)
  exact readSig_modulateField_of_lineSample hadm hy hinside (lineSample_of_active (s := lineStart s) hx)

/-- The start phase in terms of the line itself: the swing of a line's group is that of the line's parity (R190). -/
theorem startPhase_eq (c : Config) (n : Nat) :
    startPhase c n = n % 12 * 2 + if (n % 2 = 0) = (c.swingEvenPositive = true) then 6 else 0 := by
  simp only [startPhase, swingPositive_iff, Nat.mod_mod_of_dvd n (show 2 ∣ 6 by decide)]

/-- The pixel an output sample looks up, with the clamp of the row, which never acts, left out (R66). -/
theorem sourcePixel_eq (hh : s.srcH.toNat ≠ 0) (hy : y < s.cfg.lines) : sourcePixel s y x =
    readSrc s (y * s.srcH.toNat / s.cfg.lines * s.srcW.toNat + x * s.srcW.toNat / s.cfg.avLen) := by
  have hrow := sourceRow_eq_of_lt (c := s.cfg) (scaledIndex_lt hy (Nat.one_le_iff_ne_zero.2 hh))
  rw [sourcePixel, unsigned16, unsigned16, hrow]
  rfl

/-- Settles O41: the written sample is `wrap8` of the formula of R192, which fits its cell. -/
theorem modulateWritesTheActiveVideo : Obligations.ModulateWritesTheActiveVideo := by
  intro s hadm herr hfits
  refine ⟨_, exec_modulate_of_fits herr hfits, fun y x hy hx => ?_⟩
  have hread := congrArg BitVec.toInt (readSig_modulateField_active hadm hy hx)
  rw [toInt_toSample (wrap8_range _), activeOutput, sourcePixel_eq hfits.2.1 hy, startPhase_eq] at hread
  exact hread

/-! What of the image reaches the active video (R66, R196) -/

/-- Every pixel that an output sample looks up is one of the image's (R64, R66). -/
theorem sourcePixel_in_image (hfits : imageFits s) (hy : y < s.cfg.lines) (hx : x < s.cfg.avLen) :
    ∃ a, a < s.srcW.toNat * s.srcH.toNat ∧ ∀ m, sourcePixel { s with src := m } y x = readSrc { s with src := m } a := by
  obtain ⟨hw, hh, -⟩ := hfits
  have hrow : y * s.srcH.toNat / s.cfg.lines < s.srcH.toNat := scaledIndex_lt hy (Nat.one_le_iff_ne_zero.2 hh)
  have hcol : x * s.srcW.toNat / s.cfg.avLen < s.srcW.toNat := scaledIndex_lt hx (Nat.one_le_iff_ne_zero.2 hw)
  exact ⟨_, srcCell_lt hrow hcol, fun m => sourcePixel_eq (s := { s with src := m }) hh hy⟩

/-- The four taps of a black code are 0 (R142). -/
theorem lineSum_of_reserved {pix : PixelCode} (h : 14 ≤ pix.toNat % 16) (c : Config) (blackPoint : Int) (phase : Nat) :
    lineSum c blackPoint pix phase = c.blackLevel + blackPoint := by
  have htap (p : Nat) : sample c (pixelValue pix) p = 0 := sample_of_reserved (hueOf_pixelValue pix ▸ h)
  simp [lineSum, htap]

/-- Settles O42: every pixel that is looked up is a black code, so the sum is that of the two black levels. -/
theorem blackImageGivesTheBlackLevel : Obligations.BlackImageGivesTheBlackLevel := by
  intro s hadm herr hfits hblack
  refine ⟨_, exec_modulate_of_fits herr hfits, fun y x hy hx => ?_⟩
  obtain ⟨a, ha, hpix⟩ := sourcePixel_in_image hfits hy hx
  have hreserved : 14 ≤ (sourcePixel s y x).toNat % 16 := hpix s.src ▸ hblack a ha
  have hread := congrArg BitVec.toInt (readSig_modulateField_active hadm hy hx)
  rw [toInt_toSample (wrap8_range _), activeOutput, lineSum_of_reserved hreserved] at hread
  exact hread

/-! Two runs (R196) -/

/-- Settles O46: the hue occurs in no part of the active video's formula. -/
theorem hueDoesNotReachTheActiveVideo : Obligations.HueDoesNotReachTheActiveVideo := by
  intro s hue hadm herr hfits
  refine ⟨_, _, exec_modulate_of_fits herr hfits, exec_modulate_of_fits herr hfits, fun y x hy hx => ?_⟩
  have hread := readSig_modulateField_active hadm hy hx
  have hread' := readSig_modulateField_active (s := { s with hue := hue }) hadm hy hx
  exact hread.trans hread'.symm

/-- The lines of a second MODULATE start from the buffer the first left. -/
theorem lineStart_modulateField_sig (s : State) : (lineStart (modulateField s)).sig = (modulateField s).sig :=
  lineStart_sig_of_fi (modulateField_fi s)

/-- The lines of a second MODULATE write what those of the first wrote: they read nothing that a line writes. -/
theorem lineSample_modulateField (s : State) (y k : Nat) :
    lineSample (lineStart (modulateField s)) y k = lineSample (lineStart s) y k := by
  rw [modulateField_eq_lines]
  rfl

/-- Every cell: in a window the second run writes what the first wrote there, and elsewhere it writes nothing. -/
theorem find_modulateField_twice (hadm : s.cfg.admitted) (a : Nat) :
    Memory.find (modulateField (modulateField s)).sig a = Memory.find (modulateField s).sig a := by
  have hadm' : (modulateField s).cfg.admitted := by rwa [modulateField_cfg]
  by_cases ha : a < s.cfg.vres * s.cfg.hres
  case neg =>
    rw [find_modulateField_outside hadm' (by rw [modulateField_cfg]; omega), lineStart_modulateField_sig]
  case pos =>
    obtain ⟨n, k, -, hk, rfl⟩ := sigCell_surj ha
    have hsecond := find_modulateField_cell (n := n) hadm' (by rwa [modulateField_cfg])
    rw [modulateField_cfg, lineSample_modulateField, lineStart_modulateField_sig] at hsecond
    rw [hsecond, find_modulateField_cell hadm hk]
    split
    · cases lineSample (lineStart s) (n - s.cfg.top) k <;> rfl
    · rfl

/-- The second run leaves the same table, hence the same cache, and every other field is set already. -/
theorem modulateField_twice (hadm : s.cfg.admitted) : modulateField (modulateField s) =
    { modulateField s with sig := (modulateField (modulateField s)).sig } := by
  have hccb : (modulateField (modulateField s)).ccb = (modulateField s).ccb := by
    rw [modulateField_ccb, modulateField_eq_lines]
    rfl
  have hccf : (modulateField (modulateField s)).ccf = (modulateField s).ccf := table_ext fun g p => by
    rw [tableEntry_modulateField_ccf hadm, tableEntry_modulateField_ccf (by rwa [modulateField_cfg])]
    simp only [recordedBurst, hccb, modulateField_cfg]
  rw [modulateField_frame (modulateField s), hccb, hccf, ← modulateField_fi s, ← modulateField_ccPeriod s]

/-- Settles O45: the second MODULATE is accepted because the first leaves `ERR` and the image size alone. -/
theorem secondModulateChangesNothing : Obligations.SecondModulateChangesNothing := by
  intro s hadm herr hfits
  have herr' : (complete 0 (modulateField s)).err = false := (modulateField_err s).trans herr
  have hfits' : imageFits (complete 0 (modulateField s)) := by rwa [modulateField_frame]
  have hsecond := exec_modulate_of_fits herr' hfits'
  rw [modulateField_complete] at hsecond
  refine ⟨_, _, exec_modulate_of_fits herr hfits, hsecond, congrArg (complete 0) (modulateField_twice hadm), fun a => ?_⟩
  exact readSig_congr a (modulateField_resetCount (modulateField s)) (find_modulateField_twice hadm a)

/-! The source cells outside the image (R196) -/

section

variable {m : Memory 9} (hfits : imageFits s)
  (hagree : ∀ a, a < s.srcW.toNat * s.srcH.toNat → readSrc { s with src := m } a = readSrc s a)
include hfits hagree

theorem activeOutput_with_src (hy : y < s.cfg.lines) (hx : x < s.cfg.avLen) :
    activeOutput { s with src := m } y x = activeOutput s y x := by
  obtain ⟨a, ha, hpix⟩ := sourcePixel_in_image hfits hy hx
  have hsame : sourcePixel { s with src := m } y x = sourcePixel s y x :=
    (hpix m).trans ((hagree a ha).trans (hpix s.src).symm)
  simp only [activeOutput, hsame]

theorem lineSignal_with_src (hy : y < s.cfg.lines) : lineSignal { s with src := m } y = lineSignal s y := by
  funext buffer
  simp only [lineSignal]
  refine fillLine_congr (fun t hlo hhi => ?_) _
  rw [activeOutput_with_src hfits hagree hy (Nat.sub_lt_left_of_lt_add hlo hhi)]

theorem modulateLines_with_src : modulateLines { s with src := m } = { modulateLines s with src := m } := by
  have hsig := loop_congr (lo := 0) (fun y _ hy => lineSignal_with_src (y := y) hfits hagree hy) s.sig
  simp only [modulateLines, hsig]
  rfl

end

/-- The template and the burst read no source cell, and the lines read those of the image only. -/
theorem modulateField_with_src {m : Memory 9} (hfits : imageFits s)
    (hagree : ∀ a, a < s.srcW.toNat * s.srcH.toNat → readSrc { s with src := m } a = readSrc s a) :
    modulateField { s with src := m } = { modulateField s with src := m } := by
  rw [modulateField_eq_lines, modulateField_eq_lines]
  exact modulateLines_with_src (s := lineStart s) hfits hagree

/-- Settles O47: by what becomes of the command; refusal and the image check read no source cell. -/
theorem cellsOutsideTheImageAreNeverRead : Obligations.CellsOutsideTheImageAreNeverRead := by
  intro s m hagree
  by_cases herr : s.err = true
  case pos =>
    have hrefused (u : State) (h : u.err = true) : exec .modulate u = .next (refuseCommand u) :=
      (exec_eq_accept ..).trans (accept_refused rfl h rfl)
    exact ⟨_, hrefused s herr, hrefused { s with src := m } herr⟩
  case neg =>
    rw [Bool.not_eq_true] at herr
    by_cases hfits : imageFits s
    case neg =>
      exact ⟨_, exec_modulate_of_not_fits herr hfits, exec_modulate_of_not_fits (s := { s with src := m }) herr hfits⟩
    case pos =>
      refine ⟨_, exec_modulate_of_fits herr hfits, ?_⟩
      rw [exec_modulate_of_fits (s := { s with src := m }) herr hfits, modulateField_with_src hfits hagree]
      rfl

/-! The rescale (R192, R197) -/

/-- The rescale rises with the product of sum and white point: truncating division by 110 and the shift both rise. -/
theorem rescale_le_rescale {ire ire' wp wp' : Int} (h : ire * wp ≤ ire' * wp') : rescale ire wp ≤ rescale ire' wp' :=
  Int.ediv_le_ediv (by decide) (Int.tdiv_le_tdiv (by decide) h)

/-- Settles O49: the product with the sum rises or falls with the white point, by the sum's sign. -/
theorem rescaleIsMonotoneInTheWhitePoint : Obligations.RescaleIsMonotoneInTheWhitePoint := by
  intro ire wp wp' hwp
  exact ⟨fun hire => rescale_le_rescale (mul_le_mul_of_nonneg_left hwp hire),
    fun hire => rescale_le_rescale (mul_le_mul_of_nonpos_left hwp hire.le)⟩

end Sys2Proof.Proofs
end

section
/-! The statements of 44_host_commands.md: what each host command answers and writes (R220 to R230), which of them raise
(R101, R254), and a step as the command its word decodes to (R291, R292). -/

namespace Sys2Proof.Proofs

open Machine Laws

variable {cw : Word} {i : Instr} {s : State} {lo w : Nat} {reg : BitVec 5}

/-! A step as its command (R220, R292) -/

/-- Settles O6: in `IDLE` the step is the presented word run, which is the command the word decodes to. -/
theorem stepRunsTheDecodedCommand : Obligations.StepRunsTheDecodedCommand := by
  intro s t cw rest i hadm hseq hpend hdec hexec
  rw [step_command hadm hseq hpend, runWord, hdec]
  exact congrArg withResponse hexec

/-! What is illegal: the operands of a command, or a field of its format (R101) -/

theorem exec_of_not_wellFormed (herr : s.err = false) (hwf : i.wellFormed s.cfg = false) :
    exec i s = .next { s with err := true, errcode := 2, resp := 0, seq := .idle } := by
  rw [exec_eq_accept, accept_illegal hwf]
  simp only [raise, errcodeAfterRaise, herr, codeOf, Bool.false_eq_true, if_false]

theorem ifZero_of_ne_zero (h : cw.toNat / 2 ^ lo % 2 ^ w ≠ 0) : ifZero cw lo w i = .error .reservedField :=
  if_neg fun hzero => h ((field_eq_iff.1 hzero).trans BitVec.toNat_zero)

/-! The commands without operands (R222, R224, R225) -/

/-- Settles O19: NOP works in every state, and its own rule only completes it. -/
theorem nopAnswersZero : Obligations.NopAnswersZero := ⟨rfl, fun _ => exec_runs rfl (.inr rfl)⟩

/-- Settles O20: without a failure INVALIDATE runs its own rule, which writes `FI` alone. -/
theorem invalidateClearsTheFlag : Obligations.InvalidateClearsTheFlag := ⟨rfl, fun _ herr => exec_runs rfl (.inl herr)⟩

/-- Settles O21: a cell after CLRBUF is a cell after the fill of the whole buffer with 0. -/
theorem clrbufZeroesEveryCell : Obligations.ClrbufZeroesEveryCell := by
  refine ⟨rfl, fun s herr => ⟨_, exec_runs rfl (.inl herr), rfl, fun a ha => ?inside, fun a ha => ?outside⟩⟩
  case inside =>
    apply readSig_of_find
    simp [ruleOf, find_fill, ha]
  case outside =>
    refine readSig_congr (s := s) a rfl ?_
    simp [ruleOf, find_fill, ha.not_gt]

/-! WRREG (R226) -/

theorem writeRegister_with_seq (v : BitVec 16) (q : Machine.Seq) :
    writeRegister reg v { s with seq := q } = { writeRegister reg v s with seq := q } := by
  unfold writeRegister
  split <;> rfl

theorem exec_wrreg (v : BitVec 16) (herr : s.err = false) (hreg : wrregLegal reg = true) :
    exec (.wrreg reg v) s = .next { writeRegister reg v s with resp := 0, seq := .idle } := by
  have hwf : (Instr.wrreg reg v).wellFormed s.cfg = true := hreg
  rw [exec_runs hwf (.inl herr), start, ruleOf, writeRegister_with_seq]
  rfl

/-- Settles O22: register by register for 1 to 5; any other number fails WRREG's check, and a bit of 22:16 its format's. -/
theorem wrregWritesTheNamedRegister : Obligations.WrregWritesTheNamedRegister := by
  refine ⟨fun reg v => ?word, fun s v herr => ?legal, fun s reg v herr hreg => ?illegal, fun cw hop hne => ?reserved⟩
  case word =>
    rw [encode_toNat, opcode, operandBits]
    omega
  case legal =>
    exact ⟨exec_wrreg v herr rfl, exec_wrreg v herr rfl, exec_wrreg v herr rfl, exec_wrreg v herr rfl, exec_wrreg v herr rfl⟩
  case illegal =>
    have hwf : wrregLegal reg = false := by simpa [wrregLegal] using hreg
    exact exec_of_not_wellFormed herr hwf
  case reserved =>
    rw [decodeWord, field_opcode_toNat, opcodeOf, hop]
    exact ifZero_of_ne_zero hne

/-! RDREG (R27, R227) -/

/-- The fields of `STATUS` as one number (R27). -/
theorem statusWord_eq (s : State) :
    statusWord s = BitVec.ofNat 32 (s.fi.toNat + 2 * s.err.toNat + 4 * s.errcode.toNat) := by
  have hfi := s.fi.toNat_lt
  have herr := s.err.toNat_lt
  apply BitVec.eq_of_toNat_eq
  simp only [statusWord, append_toNat, BitVec.toNat_ofBool, BitVec.toNat_ofNat]
  omega

theorem readableRegister_ccfRegister : ∀ (g : Group) (p : Position), readableRegister (ccfRegister g p) = some (.ccf g p) := by
  decide

theorem rdregLegal_of_readable {r : ReadableRegister} (h : readableRegister reg = some r) : rdregLegal reg = true := by
  refine bne_iff_ne.2 fun h7 => ?_
  simp [readableRegister, h7] at h

theorem registerView_start (op : Operation) (s : State) (r : ReadableRegister) :
    registerView (start op s) r = registerView s r := by
  cases r <;> rfl

/-- RDREG answers the view of the register its number stands for, also while `ERR = 1`. -/
theorem exec_rdreg (r : ReadableRegister) (s : State) (h : readableRegister reg = some r) :
    exec (.rdreg reg) s = .next { s with resp := registerView s r, seq := .idle } := by
  have hwf : (Instr.rdreg reg).wellFormed s.cfg = true := rdregLegal_of_readable h
  have hread : readRegister (start .rdreg s) reg = registerView s r := by
    rw [readRegister, h]
    exact registerView_start ..
  rw [exec_runs hwf (.inr rfl), ruleOf, operationOf, hread]
  rfl

/-- Settles O23: register by register, with the entries of `CCF` as one case; number 7 fails RDREG's check, and a bit of 22:0
its format's. -/
theorem rdregAnswersTheRegisterView : Obligations.RdregAnswersTheRegisterView := by
  refine ⟨fun reg => ?word, fun s => ?views, fun s herr => exec_of_not_wellFormed herr rfl, fun cw hop hne => ?reserved⟩
  case word =>
    rw [encode_toNat, opcode, operandBits]
    omega
  case views =>
    simp only [← statusWord_eq, BitVec.ofNat_toNat]
    exact ⟨exec_rdreg .status s rfl, exec_rdreg .blackPoint s rfl, exec_rdreg .whitePoint s rfl, exec_rdreg .hue s rfl,
      exec_rdreg .srcW s rfl, exec_rdreg .srcH s rfl, exec_rdreg .ccPeriod s rfl,
      fun g p => exec_rdreg (.ccf g p) s (readableRegister_ccfRegister g p)⟩
  case reserved =>
    rw [decodeWord, field_opcode_toNat, opcodeOf, hop]
    exact ifZero_of_ne_zero (by simpa using hne)

/-! The cells of the memories: WRSRC, RDSIG, RDSRC (R228 to R230) -/

theorem srcIndexLegal_eq_false {c : Config} {a : Nat} (h : c.srcCap ≤ a) : srcIndexLegal c a = false :=
  decide_eq_false h.not_gt

/-- Settles O24: a read of `SRC` after WRSRC is a read after the write of one cell; an index past the memory fails WRSRC's check,
and a bit of 27:25 its format's. -/
theorem wrsrcWritesOneCell : Obligations.WrsrcWritesOneCell := by
  refine ⟨fun addr pix => ?word, fun s addr pix herr haddr => ?legal,
    fun s addr pix herr haddr => exec_of_not_wellFormed herr (srcIndexLegal_eq_false haddr), fun cw hop hne => ?reserved⟩
  case word =>
    rw [encode_toNat, opcode, operandBits]
    omega
  case legal =>
    obtain ⟨t, hexec, hframe, hread⟩ := exec_wrsrc_of_lt pix herr haddr
    exact ⟨t, hexec, hframe, by rw [hread, if_pos rfl], fun a ha => by rw [hread, if_neg ha]⟩
  case reserved =>
    rw [decodeWord, field_opcode_toNat, opcodeOf, hop]
    exact ifZero_of_ne_zero hne

/-- Settles O26: RDSIG's own rule answers the cell and runs in every state; an index past the buffer fails its check. -/
theorem rdsigAnswersTheCell : Obligations.RdsigAnswersTheCell := by
  refine ⟨fun addr => ?word, fun s addr haddr => ?legal, fun s addr herr haddr => ?illegal⟩
  case word =>
    rw [encode_toNat, opcode, operandBits]
    omega
  case legal =>
    have hwf : sigIndexLegal s.cfg addr.toNat = true := decide_eq_true haddr
    exact exec_runs hwf (.inr rfl)
  case illegal =>
    have hwf : sigIndexLegal s.cfg addr.toNat = false := decide_eq_false haddr.not_gt
    exact exec_of_not_wellFormed herr hwf

/-- Settles O27: RDSRC's own rule answers the cell and runs in every state; an index past the memory fails its check. -/
theorem rdsrcAnswersTheCell : Obligations.RdsrcAnswersTheCell := by
  refine ⟨fun addr => ?word, fun s addr haddr => ?legal,
    fun s addr herr haddr => exec_of_not_wellFormed herr (srcIndexLegal_eq_false haddr)⟩
  case word =>
    rw [encode_toNat, opcode, operandBits]
    omega
  case legal =>
    have hwf : srcIndexLegal s.cfg addr.toNat = true := decide_eq_true haddr
    rw [BitVec.ofNat_toNat]
    exact exec_runs hwf (.inr rfl)

end Sys2Proof.Proofs
end

section
/-! The statements of 60_exceptions.md: what a raise records (R253, R254), what is left of every command while `ERR = 1` (R255), and
the independence of the instances of a system (R260). -/

namespace Sys2Proof.Proofs

open Machine Laws

variable {cw : Word} {i : Instr} {s t : State} {system system' : List State} {k : Nat}

/-! Taking an exception (R253, R254) -/

theorem exec_raises (hwf : i.wellFormed s.cfg = false) : exec i s = .next (raise .illegalCommand s) := by
  rw [exec_eq_accept]
  exact accept_illegal hwf

/-- Settles O14: an ill-formed command raises whatever `ERR` is, and MODULATE's own raise is that of its argument check. -/
theorem raiseRecordsTheFirstCauseOnly : Obligations.RaiseRecordsTheFirstCauseOnly :=
  ⟨fun _ _ hwf => exec_raises hwf, fun _ herr hfits => exec_modulate_of_not_fits herr hfits⟩

/-- The first cause is kept, so a raise while `ERR = 1` does no more than end the command with the answer 0. -/
theorem raise_of_err (herr : s.err = true) (e : ExceptionCause) : raise e s = complete 0 s := by
  simp [raise, complete, errcodeAfterRaise, herr]

/-! Commands while `ERR = 1` (R255) -/

theorem exec_refused (herr : s.err = true) (hwf : i.wellFormed s.cfg = true) (hchanges : changesState i = true) :
    exec i s = .next (refuseCommand s) := by
  rw [exec_eq_accept]
  exact accept_refused hwf herr (by rw [worksInError_operationOf, hchanges]; rfl)

/-- The four commands that work in the error state do nothing but answer. -/
theorem ruleOf_of_not_changesState (hreads : changesState i = false) (s : State) :
    ruleOf i s = complete (ruleOf i s).resp s := by
  cases i with
  | nop | rdreg | rdsig | rdsrc => rfl
  | modulate | template | burstgen | sample | invalidate | clrbuf | wrreg | wrsrc => cases hreads

theorem exec_reads (hwf : i.wellFormed s.cfg = true) (hreads : changesState i = false) :
    exec i s = .next (complete (ruleOf i (start (operationOf i) s)).resp s) := by
  rw [exec_runs hwf (.inr hreads), ruleOf_of_not_changesState hreads]
  rfl

/-- Register 0 alone shows `STATUS` (R27). -/
theorem eq_zero_of_readable_status : ∀ {reg : BitVec 5}, readableRegister reg = some .status → reg = 0 := by
  decide

theorem readRegister_with_err {reg : BitVec 5} (hreg : reg ≠ 0) (s : State) (b : Bool) :
    readRegister { s with err := b } reg = readRegister s reg := by
  unfold readRegister
  split
  case h_1 r hr =>
    cases r with
    | status => exact absurd (eq_zero_of_readable_status hr) hreg
    | blackPoint | whitePoint | hue | srcW | srcH | ccPeriod | ccf => rfl
  case h_2 => rfl

/-- No answer but that of a read of `STATUS` shows `ERR`. -/
theorem ruleOf_resp_with_err (hreads : changesState i = false) (hstatus : i ≠ .rdreg 0) (s : State) (b : Bool) :
    (ruleOf i { s with err := b }).resp = (ruleOf i s).resp := by
  cases i with
  | rdreg reg => exact readRegister_with_err (fun hreg => hstatus (congrArg Instr.rdreg hreg)) s b
  | nop | rdsig | rdsrc => rfl
  | modulate | template | burstgen | sample | invalidate | clrbuf | wrreg | wrsrc => cases hreads

/-- Settles O16: the eight are refused, the four answer what their own rules answer, which `STATUS` apart do not read `ERR`. -/
theorem errorRefusesStateChangingCommands : Obligations.ErrorRefusesStateChangingCommands := by
  refine ⟨fun i s herr hwf hchanges => exec_refused herr hwf hchanges, fun i s _ hwf hreads => ?_⟩
  refine ⟨_, exec_reads hwf hreads, fun hstatus => ?_⟩
  have hclear : exec i { s with err := false } = _ := exec_reads hwf hreads
  have hresp := ruleOf_resp_with_err hreads hstatus (start (operationOf i) s) false
  rw [hclear, ← hresp]
  rfl

/-- Illegal, refused or run: every command in the error state only ends with some answer. -/
theorem exec_of_err (herr : s.err = true) (h : exec i s = .next t) : ∃ v, t = complete v s := by
  rw [exec_eq_accept] at h
  rcases accept_cases h with ⟨-, rfl⟩ | ⟨-, -, -, rfl⟩ | ⟨-, hruns, rfl⟩
  · exact ⟨0, raise_of_err herr _⟩
  · exact ⟨0, rfl⟩
  · have hreads : changesState i = false := by simpa [herr, worksInError_operationOf] using hruns
    exact ⟨_, ruleOf_of_not_changesState hreads _⟩

theorem runWord_of_err (herr : s.err = true) (h : runWord cw s = .next t) : ∃ v, t = complete v s := by
  rcases runWord_cases h with ⟨i, -, hexec⟩ | ⟨e, -, rfl⟩
  · exact exec_of_err herr hexec
  · exact ⟨0, raise_of_err herr _⟩

/-- Settles O17: of the host's three turns one is a reset, one does nothing, and a command only ends with some answer. -/
theorem onlyResetLeavesTheErrorState : Obligations.OnlyResetLeavesTheErrorState := by
  intro s t herr hstep hnoreset
  obtain ⟨-, hseq, hturn⟩ := step_next hstep
  rcases hostTurn_cases hturn with ⟨-, rfl⟩ | ⟨rest, hpend, -⟩ | ⟨cw, rest, u, -, hrun, rfl⟩
  · rfl
  · exact absurd hpend (hnoreset rest)
  · obtain ⟨v, rfl⟩ := runWord_of_err (s := { s with pending := rest }) herr hrun
    simp only [returnResponse, complete, hseq]

/-! Legality before MODULATE's own check (R253) -/

/-- With an image that does not fit MODULATE leaves what a raise leaves, while `ERR = 1` too, where it is refused. -/
theorem exec_modulate_raises (hfits : ¬ imageFits s) : exec .modulate s = .next (raise .invalidArgument s) := by
  cases herr : s.err with
  | false =>
    rw [exec_modulate_of_not_fits herr hfits]
    simp only [raise, errcodeAfterRaise, codeOf, herr, Bool.false_eq_true, if_false]
  | true =>
    rw [raise_of_err herr]
    exact exec_refused herr rfl rfl

theorem runWord_encode (i : Instr) (s : State) : runWord (encode i) s = exec i s := by
  rw [runWord, decodeWord_encode]

/-- Settles O18: the reserved bits make the word illegal, and the word of MODULATE runs its check of the image. -/
theorem illegalityComesBeforeTheImageCheck : Obligations.IllegalityComesBeforeTheImageCheck := by
  intro s cw rest hadm hseq hfits hpend
  refine ⟨fun hop hne => ?reserved, fun hcw => ?modulate⟩
  case reserved =>
    have hopcode : opcodeOf cw = 1 := hop
    have hillegal : illegalWord s.cfg cw := .inr (.inl ⟨by simp [hopcode], hne⟩)
    exact illegalWordRaisesAndDoesNothingElse s cw rest hadm hseq hpend hillegal
  case modulate =>
    have hword : cw = encode .modulate := hcw
    have hexec := exec_modulate_raises (s := { s with pending := rest }) hfits
    rw [step_command hadm hseq hpend, hword, runWord_encode, hexec]
    simp only [withResponse, returnResponse, raise, errcodeAfterRaise, codeOf, hseq]

/-! Several instances (R260) -/

theorem stepInstance_of_none (hk : system[k]? = none) : stepInstance k system = .next system := by
  simp only [stepInstance, hk]

theorem stepInstance_of_next (hk : system[k]? = some s) (hstep : step s = .next t) :
    stepInstance k system = .next (system.set k t) := by
  simp only [stepInstance, hk, hstep]

theorem stepInstance_of_refused {r : Refusal} (hk : system[k]? = some s) (hstep : step s = .refused r) :
    stepInstance k system = .refused r := by
  simp only [stepInstance, hk, hstep]

/-- A step of the system keeps the list or replaces one entry of it. -/
theorem stepInstance_cases (h : stepInstance k system = .next system') :
    system' = system ∨ ∃ t, system' = system.set k t := by
  unfold stepInstance at h
  split at h
  · cases h
    exact .inl rfl
  · split at h
    · cases h
      exact .inr ⟨_, rfl⟩
    · cases h
    · cases h

/-- Settles O57: a step of the system replaces the entry of its own instance, or nothing. -/
theorem instancesDoNotInteract : Obligations.InstancesDoNotInteract := by
  refine ⟨fun k j system system' hnext hj => ?others, fun k system s t hk hstep => ?own,
    fun _ _ _ _ hk hstep => stepInstance_of_refused hk hstep, fun _ _ hk => stepInstance_of_none hk⟩
  case others =>
    rcases stepInstance_cases hnext with rfl | ⟨t, rfl⟩
    · rfl
    · exact List.getElem?_set_ne hj.symm
  case own =>
    obtain ⟨hlt, -⟩ := List.getElem?_eq_some_iff.1 hk
    exact ⟨_, stepInstance_of_next hk hstep, List.getElem?_set_self hlt⟩

end Sys2Proof.Proofs
end

section
/-! The statements of 70_reset_and_hazards.md: what an applied reset leaves (R280), that every run ends (R292), and the hazard of
clearing the buffer without clearing `FI` (R286). -/

namespace Sys2Proof.Proofs

open Machine Laws

variable {s : State} {a : HostAction} {rest : List HostAction}

/-! Applying reset (R280) -/

theorem step_reset (hadm : s.cfg.admitted = true) (hseq : s.seq = .idle) (hpend : s.pending = .reset :: rest) :
    step s = .next (applyReset rest s) := by
  rw [step_of_idle hadm hseq, hostTurn, hpend]

/-- Settles O13: in `IDLE` the step is the host's turn, which applies the reset. -/
theorem applyingResetGivesTheResetState : Obligations.ApplyingResetGivesTheResetState :=
  fun _ _ hadm hseq hpend => step_reset hadm hseq hpend

/-! A run takes the host's actions one by one (R292) -/

/-- A word is always answered, and running it leaves the host's side of the interface alone (R220). -/
theorem runWord_completes (cw : Word) (s : State) :
    ∃ u, runWord cw s = .next u ∧ u.pending = s.pending ∧ u.responses = s.responses := by
  unfold runWord
  split
  case h_1 i _ =>
    obtain ⟨u, hexec, -, -, hpend, hresponses, -⟩ := everyCommandCompletesInIdle i s
    exact ⟨u, hexec, hpend, hresponses⟩
  case h_2 => exact ⟨_, rfl, rfl, rfl⟩

/-- A step takes the next action off the host's list, and the responses returned with those still to come stay as many. -/
theorem step_takes_action (hs : consistent s) (hpend : s.pending = a :: rest) :
    ∃ t, step s = .next t ∧ t.pending = rest ∧
      t.responses.length + commandCount rest = s.responses.length + commandCount (a :: rest) := by
  obtain ⟨hadm, hseq, -⟩ := hs
  cases a with
  | reset => exact ⟨_, step_reset hadm hseq hpend, rfl, rfl⟩
  | command cw =>
    obtain ⟨u, hrun, hupend, huresponses⟩ := runWord_completes cw { s with pending := rest }
    refine ⟨returnResponse u, ?_, hupend, ?_⟩
    · rw [step_command hadm hseq hpend, hrun, withResponse]
    · have hcount : u.responses.length = s.responses.length := congrArg List.length huresponses
      rw [returnResponse_responses, List.length_append, List.length_singleton, hcount, commandCount]
      omega

/-- The run over a list of actions, by induction on it: the first step leaves a consistent state with the rest pending. -/
theorem run_takes_all_actions {actions : List HostAction} (hs : consistent s) (hpend : s.pending = actions) :
    ∃ t, Sys2Proof.core.run actions.length s = .next t ∧ consistent t ∧ t.pending = [] ∧
      t.responses.length = s.responses.length + commandCount actions := by
  induction actions generalizing s with
  | nil => exact ⟨s, rfl, hs, hpend, rfl⟩
  | cons a rest ih =>
    obtain ⟨u, hstep, hupend, hucount⟩ := step_takes_action hs hpend
    obtain ⟨t, hrun, ht, htpend, htcount⟩ := ih (everyStepKeepsTheStateConsistent s u hs hstep) hupend
    exact ⟨t, (core_run_succ hstep _).trans hrun, ht, htpend, htcount.trans hucount⟩

/-- Settles O11: the run takes every action, and the state it ends in is consistent, so in `IDLE`. -/
theorem everyRunEnds : Obligations.EveryRunEnds := by
  intro s hs
  obtain ⟨t, hrun, ht, hpend, hcount⟩ := run_takes_all_actions hs rfl
  obtain ⟨-, hseq, -⟩ := ht
  exact ⟨t, hrun, List.isEmpty_iff.2 hpend, hseq, hcount⟩

/-! MODULATE after CLRBUF or INVALIDATE alone (R286) -/

/-- The buffer CLRBUF leaves (R225). -/
def clearedBuffer (s : State) : Memory 8 := Memory.fill s.sig 0 (s.cfg.vres * s.cfg.hres) fun _ => 0

theorem exec_clrbuf (herr : s.err = false) :
    exec .clrbuf s = .next { s with sig := clearedBuffer s, resp := 0, seq := .idle } :=
  exec_runs rfl (.inl herr)

theorem find_clearedBuffer {n k : Nat} (hn : n < s.cfg.vres) (hk : k < s.cfg.hres) :
    Memory.find (clearedBuffer s) (sigCell s.cfg n k) = some 0 := by
  have hcell : sigCell s.cfg n k < s.cfg.vres * s.cfg.hres := (srcCell_lt hn hk).trans_eq (Nat.mul_comm ..)
  rw [clearedBuffer, find_fill, if_pos (by omega)]

/-- Settles O43: CLRBUF leaves `FI` set, so MODULATE keeps its zeros; INVALIDATE clears it, so MODULATE builds the template. -/
theorem clearingAloneLosesTheTiming : Obligations.ClearingAloneLosesTheTiming := by
  refine ⟨fun s hadm herr hfi hfits => ?clrbuf, fun s hadm herr hfits => ?invalidate⟩
  case clrbuf =>
    obtain ⟨u, hmodulate, hread, -⟩ := modulateKeepsTheTimingRegions
      { s with sig := clearedBuffer s, resp := 0, seq := .idle } hadm herr hfits
    refine ⟨_, u, exec_clrbuf herr, hmodulate, fun n k hn hk hkeep => (hread n k hn hk hkeep).trans ?_⟩
    rw [if_pos hfi]
    exact readSig_of_find (find_clearedBuffer hn hk)
  case invalidate =>
    obtain ⟨u, hmodulate, hread, -⟩ := modulateKeepsTheTimingRegions
      { s with fi := false, resp := 0, seq := .idle } hadm herr hfits
    exact ⟨_, u, invalidateClearsTheFlag.2 s herr, hmodulate, hread⟩

end Sys2Proof.Proofs
end

section
/-! The remaining statements: words written out in the spec (30_encoding.md), what a step is without an action to take or
where there is none (R220, R292, U2, U6, U15), what reset leaves (R38), the period and the nine bits of the sampler (R147, R149), and
the bound of the sine (R171). -/

namespace Sys2Proof.Proofs

open Machine Laws

variable {c : Config} {s : State} {cw : Word} {i : Instr} {op : Operation} {p q : Int} {phase : Nat}

/-! Words of the spec (R91, R92, R101) -/

theorem decodeWord_of_encode (h : encode i = cw) : decodeWord cw = .ok i := h ▸ decodeWord_encode i

theorem decodeWord_of_reservedOpcode (h : 12 ≤ opcodeOf cw) : decodeWord cw = .error .reservedOpcode := by
  unfold decodeWord
  rw [field_opcode_toNat]
  split
  case h_13 => rfl
  all_goals omega

/-- A bit below the opcode of MODULATE's word is in the row's "must be 0" field. -/
theorem decodeWord_modulate_reservedField (hop : opcodeOf cw = 1) (hlow : cw.toNat % 2 ^ 28 ≠ 0) :
    decodeWord cw = .error .reservedField := by
  have hfield : cw.toNat / 2 ^ 0 % 2 ^ 28 ≠ 0 := by rwa [pow_zero, Nat.div_one]
  unfold decodeWord
  rw [field_opcode_toNat, hop]
  exact ifZero_of_ne_zero hfield

/-- Settles O1: the first five are the words of those commands, and the other two break items 2 and 1 of R101. -/
theorem wordsOfTheSpecDecode : Obligations.WordsOfTheSpecDecode := by
  refine ⟨decodeWord_of_encode ?sample, decodeWord_of_encode ?wrreg, decodeWord_of_encode ?rdreg,
    decodeWord_of_encode ?wrsrc, decodeWord_of_encode ?rdsig, ?reservedField, ?reservedOpcode⟩
  case sample | wrreg | rdreg | wrsrc | rdsig => decide
  case reservedField => exact decodeWord_modulate_reservedField (by decide) (by decide)
  case reservedOpcode => exact decodeWord_of_reservedOpcode (by decide)

/-! Steps that run no command (R292, U2, U6, U15) -/

/-- Settles O7: in `IDLE` the step is the host's turn, and the host takes none. -/
theorem stepWithNothingToDoKeepsTheState : Obligations.StepWithNothingToDoKeepsTheState := by
  intro s hadm hseq hpend
  rw [step_of_idle hadm hseq, hostTurn, hpend]

theorem step_of_run (hadm : s.cfg.admitted = true) (hseq : s.seq = .run op) : step s = .refused .notIdle := by
  rw [step, turn, if_pos hadm, hseq]

theorem step_of_not_admitted (hadm : ¬ s.cfg.admitted = true) : step s = .refused .configurationNotAdmitted := if_neg hadm

/-- Settles O8: the step asks for an admitted configuration first, and then for `IDLE`. -/
theorem noStepOutsideIdleOrAdmission : Obligations.NoStepOutsideIdleOrAdmission :=
  ⟨fun _ _ => step_of_run, fun _ => step_of_not_admitted⟩

/-! What reset leaves (R38) -/

theorem tableEntry_ofFn (f : Group → Position → BitVec 32) (g : Group) (p : Position) :
    tableEntry (Vector.ofFn fun g => Vector.ofFn fun p => f g p) g p = f g p := by
  simp [tableEntry]

/-- Settles O12: the registers row by row; the tables entry by entry; and a cell that nothing has written reads its
free value. -/
theorem resetLeavesTheTabulatedValues : Obligations.ResetLeavesTheTabulatedValues := by
  intro c k
  refine ⟨rfl, rfl, rfl, rfl, rfl, rfl, rfl, rfl, rfl, rfl, fun g p => ⟨?ccf, ?ccb⟩, fun a => ⟨rfl, rfl⟩⟩
  case ccf => exact tableEntry_ofFn (Config.ccfAtReset k) g p
  case ccb => exact tableEntry_ofFn (Config.ccbAtReset k) g p

/-- Reset empties both memories and the error record (R38). -/
theorem consistent_afterReset (hadm : c.admitted = true) (k : Nat) : consistent (State.afterReset c k) :=
  ⟨hadm, rfl, .nil, .nil, List.forall_mem_nil _, List.forall_mem_nil _, .inl ⟨rfl, rfl⟩⟩

theorem installed_admitted : Config.installed.admitted = true := by decide

/-- Settles O51: of the invariant's parts only the admission is not the reset's own doing, and `TOY` is admitted. -/
theorem resetStateIsConsistent : Obligations.ResetStateIsConsistent :=
  ⟨fun _ k hadm => consistent_afterReset hadm k, consistent_afterReset installed_admitted 0⟩

/-! The sampler's period and its nine bits (R141, R147, R149) -/

/-- The luminance flag reads the phase mod 12, in its half-cycle (R143, R145). -/
theorem luminanceActive_add_twelve (c : Config) (p : Int) (phase : Nat) :
    luminanceActive c p (phase + 12) = luminanceActive c p phase := by
  have hhalf : halfCycleActive (hueOf p) (phase + 12) = halfCycleActive (hueOf p) phase := by
    rw [halfCycleActive, halfCycleActive, ← Nat.add_assoc, Nat.add_mod_right]
  rw [luminanceActive, luminanceActive, hhalf]

/-- Twelve phases are the six sextants once around (R144). -/
theorem sextantOf_add_twelve (phase : Nat) : sextantOf (phase + 12) = sextantOf phase := by
  apply Fin.ext
  simp only [sextantOf, Fin.val_ofNat]
  omega

theorem emphasisActive_add_twelve (c : Config) (p : Int) (phase : Nat) :
    emphasisActive c p (phase + 12) = emphasisActive c p phase := by
  simp only [emphasisActive, sextantOf_add_twelve]

theorem sample_add_twelve (c : Config) (p : Int) (phase : Nat) : sample c p (phase + 12) = sample c p phase := by
  simp only [sample, luminanceActive_add_twelve, emphasisActive_add_twelve]

theorem hueOf_add_512_mul (p k : Int) : hueOf (p + 512 * k) = hueOf p := by
  have hbits : (p + 512 * k) % 16 = p % 16 := by omega
  rw [hueOf, hueOf, hbits]

theorem tierOf_add_512_mul (p k : Int) : tierOf (p + 512 * k) = tierOf p := by
  have hbits : (p + 512 * k) / 16 % 4 = p / 16 % 4 := by omega
  rw [tierOf, tierOf, hbits]

theorem emphOf_add_512_mul (p k : Int) : emphOf (p + 512 * k) = emphOf p := by
  have hbits : (p + 512 * k) / 64 % 8 = p / 64 % 8 := by omega
  apply BitVec.eq_of_toNat_eq
  rw [emphOf, emphOf, BitVec.toNat_ofInt, BitVec.toNat_ofInt]
  exact congrArg Int.toNat hbits

/-- The sampler reads a code through its three fields, which are bits [8:0] of it (R96). -/
theorem sample_congr (hhue : hueOf p = hueOf q) (htier : tierOf p = tierOf q) (hemph : emphOf p = emphOf q) :
    sample c p phase = sample c q phase := by
  simp only [sample, luminanceActive, emphasisActive, hhue, htier, hemph]

/-- Settles O30: both flags have the period in the phase, and the three fields of the code have no bit above bit 8. -/
theorem samplerHasPeriodTwelveAndReadsNineBits : Obligations.SamplerHasPeriodTwelveAndReadsNineBits :=
  fun c p k phase => ⟨sample_add_twelve c p phase,
    sample_congr (hueOf_add_512_mul p k) (tierOf_add_512_mul p k) (emphOf_add_512_mul p k)⟩

/-! The bound of the sine (R171) -/

/-- Settles O35: the bound of either source of the sine. -/
theorem sineIsBounded : Obligations.SineIsBounded := sine_bounds

end Sys2Proof.Proofs
end
